-- ==== Sys2Proof/Word.lean ====
section
/-!
DEFINITION. The two word types of the block.  Rule R8 (00_scope.md): a `u8` is an unsigned 8-bit value, a `u16` an
unsigned 16-bit value, bit 0 is the least significant bit, and no value is signed.  Cursor sums are 8-bit sums taken
modulo 256 (R8, R61), which is what `+` and `-` on `Byte` do.
-/

namespace Sys2Proof

/-- A `u8` of rule R8. -/
abbrev Byte := BitVec 8

/-- A `u16` of rule R8. -/
abbrev Word16 := BitVec 16

end Sys2Proof
end

