-- ==== Sys2Proof/Config.lean ====
section
/-!
DEFINITION. The implementation parameters of rule R7 (00_scope.md) that have a value, the link characters of rule R95
(30_encoding.md), the record flags of rule R62 (20_memory.md), and the one free value of the model.  The parameters
that rule R7 leaves OPEN (`RX_BURST_MAX`, `CFG_INIT`) and the one a model may choose (`MASK_DIO8`, U6 of
93_implementation_defined.md) are arguments: they stand in `Machine.State` (`par`, `store`), no step changes them, and a
statement about every state holds for every value of them.
-/

namespace Sys2Proof.Config

/-- `RING_SIZE` (R7). -/
abbrev ringSize : Nat := 256
/-- `MAX_PAYLOAD` (R7). -/
abbrev maxPayload : Nat := 253
/-- `HDR_SIZE` (R7). -/
abbrev hdrSize : Nat := 2
/-- The most bytes the ring may hold: it never reaches "full", one byte stays free (R63). -/
abbrev maxUsed : Nat := 255
/-- `DST_SIZE` (R7). -/
abbrev dstSize : Nat := 256
/-- `TIMEOUT_MAX` (R7), in ms. -/
abbrev timeoutMax : Nat := 3000
/-- `TIMEOUT_DEFAULT` (R7), in ms. -/
abbrev timeoutDefault : Word16 := 1000#16
/-- `GET_LIST_MAX` (R7). -/
abbrev getListMax : Nat := 15
/-- `CTRL_PAD` (R7). -/
abbrev ctrlPad : Byte := 0#8
/-- `PAD_MIN` (R7). -/
abbrev padMin : Nat := 1
/-- `PAD_MAX` (R7). -/
abbrev padMax : Nat := 30
/-- `SAD_MAX` (R7); `SAD_MIN` is 0 and excludes no `u8`. -/
abbrev sadMax : Nat := 30
/-- The largest EOS code (R48, D47). -/
abbrev eosMax : Nat := 3

/-- `ESC` (R7, R95). -/
abbrev chEsc : Byte := 0x1B#8
/-- `+` (R95). -/
abbrev chPlus : Byte := 0x2B#8
/-- CR (R95). -/
abbrev chCr : Byte := 0x0D#8
/-- LF (R95). -/
abbrev chLf : Byte := 0x0A#8

/-- Flag byte of a command record (R62). -/
abbrev flagCommand : Byte := 0x01#8
/-- Flag byte of a data record (R62). -/
abbrev flagData : Byte := 0x00#8

/-- FREE VALUE (log entry 1).  The byte that ring address `addr` holds after the `draw`-th `RESET` event: rules R22 and
R340 leave it arbitrary ("a model gives each byte an arbitrary value").  It has no body, so no proof can see it. -/
opaque freeRingByte : (draw addr : Nat) → Byte

end Sys2Proof.Config
end

