-- ==== Sys2Proof/Syntax.lean ====
section
/-!
DEFINITION. The instructions: one constructor of `Instr` per row of spec/opcode_table.json.  The block has no
instruction set (R2); its "instructions" are the requests of rule R100, the environment events of rule R101, the GPIB
command bytes of rules R91 and R220, and the link character classes of rule R95.
-/

namespace Sys2Proof

/-- The bus role (R43). -/
inductive Role where
  | controller
  | device
  deriving DecidableEq, Repr

/-- `direction` of `ADDRESSING_SETUP` (R100). -/
inductive Direction where
  | send
  | receive
  deriving DecidableEq, Repr

/-- `mode` of `RECEIVE_MESSAGE` (R100). -/
inductive RecvMode where
  | untilEoi
  | untilChar
  | untilTimeout
  deriving DecidableEq, Repr

/-- One entry `(pad, sad, use_sad)` of `SEND_GROUP_TRIGGER`'s list (R100). -/
structure Target where
  pad : Byte
  sad : Byte
  useSad : Bool
  deriving DecidableEq, Repr

/-- The operands `field, value` of `SET_CONFIG`: one configuration field of rules R45 to R50 with a value of that
field's type.  `eosMode` carries a byte, because a value above 3 is a range error and no type error (R51, D47). -/
inductive ConfigWrite where
  | myPad (v : Byte)
  | mySad (v : Byte)
  | sadValid (v : Bool)
  | timeoutMs (v : Word16)
  | eoiUse (v : Bool)
  | eosMode (v : Byte)
  | eotEnable (v : Bool)
  | eotChar (v : Byte)
  | autoRead (v : Bool)
  deriving DecidableEq, Repr

/-- The operand of `BUS_DRIVE` (R101, R307): a new `Rem.L` for any subset of the control lines and, when present, a new
`Rem.DIO`.  `none` leaves the line as it is. -/
structure BusDrive where
  atn : Option Bool
  dav : Option Bool
  eoi : Option Bool
  nrfd : Option Bool
  ndac : Option Bool
  ifc : Option Bool
  srq : Option Bool
  ren : Option Bool
  dio : Option Byte
  deriving DecidableEq, Repr

/-- The move that changes no line. -/
def BusDrive.none : BusDrive := ⟨.none, .none, .none, .none, .none, .none, .none, .none, .none⟩

/-- The leading-`++` lookahead `rx_lead` (R28). -/
inductive RxLead where
  | start
  | onePlus
  | body
  deriving DecidableEq, Repr

/-- The receiver mode `rx_mode` (R29). -/
inductive RxMode where
  | normal
  | discard
  deriving DecidableEq, Repr

/-- A decoded command byte, `Cmd` of rule R220. -/
inductive Cmd where
  | gtl
  | sdc
  | get
  | llo
  | dcl
  | spe
  | spd
  | mla (a : Byte)
  | unl
  | mta (a : Byte)
  | unt
  | msa (s : Byte)
  | other (c : Byte)
  deriving DecidableEq, Repr

/-- The class of one link byte in its context: the classes of rule R95, with `PLUS` split into the leading pair (R124)
and every other `+` (R123), and the two contexts in which a byte of any value has one meaning (R126, R129). -/
inductive LinkClass where
  | esc
  | plus
  | leadingPlusPair
  | cr
  | lf
  | lit (c : Byte)
  | escaped (c : Byte)
  | discard (c : Byte)
  deriving DecidableEq, Repr

/-- One constructor per row of spec/opcode_table.json. -/
inductive Instr where
  -- requests (R100)
  | sendByte (value : Byte) (assertEoi : Bool)
  | receiveByte
  | sendCommand (byte : Byte)
  | sendData (buffer : List Byte) (useEoi : Bool)
  | receiveMessage (mode : RecvMode) (stopChar : Byte)
  | addressingSetup (pad sad : Byte) (useSad : Bool) (direction : Direction)
  | readStatusByte (pad sad : Byte) (useSad : Bool)
  | sendIfc
  | sendGroupTrigger (list : List Target)
  | popRecord
  | deviceCycle
  | listenOnlyCycle
  | mainCycle
  | setRole (role : Role)
  | setListenOnly (on : Bool)
  | setStatus (value : Byte)
  | setSrq (on : Bool)
  | setConfig (write : ConfigWrite)
  -- environment events (R101)
  | rxBurst (bytes : List Byte)
  | tick
  | busDrive (drive : BusDrive)
  | reset
  -- GPIB command bytes (R91, R220)
  | gtl
  | sdc
  | get
  | llo
  | dcl
  | spe
  | spd
  | unl
  | mla (a : Byte)
  | unt
  | mta (a : Byte)
  | msa (s : Byte)
  | other (c : Byte)
  -- link character classes (R95)
  | esc
  | plus
  | leadingPlusPair
  | cr
  | lf
  | lit (c : Byte)
  | escaped (c : Byte)
  | discard (c : Byte)
  deriving DecidableEq, Repr

/-- The four kinds of row of spec/opcode_table.json. -/
inductive Kind where
  | request
  | event
  | command
  | linkChar
  deriving DecidableEq, Repr

/-- The kind of an instruction. -/
def Instr.kind : Instr → Kind
  | .sendByte _ _ | .receiveByte | .sendCommand _ | .sendData _ _ | .receiveMessage _ _ | .addressingSetup _ _ _ _
  | .readStatusByte _ _ _ | .sendIfc | .sendGroupTrigger _ | .popRecord | .deviceCycle | .listenOnlyCycle | .mainCycle
  | .setRole _ | .setListenOnly _ | .setStatus _ | .setSrq _ | .setConfig _ => .request
  | .rxBurst _ | .tick | .busDrive _ | .reset => .event
  | .gtl | .sdc | .get | .llo | .dcl | .spe | .spd | .unl | .mla _ | .unt | .mta _ | .msa _ | .other _ => .command
  | .esc | .plus | .leadingPlusPair | .cr | .lf | .lit _ | .escaped _ | .discard _ => .linkChar

/-- The instruction of a decoded command byte. -/
def Cmd.toInstr : Cmd → Instr
  | .gtl => .gtl
  | .sdc => .sdc
  | .get => .get
  | .llo => .llo
  | .dcl => .dcl
  | .spe => .spe
  | .spd => .spd
  | .mla a => .mla a
  | .unl => .unl
  | .mta a => .mta a
  | .unt => .unt
  | .msa s => .msa s
  | .other c => .other c

/-- The instruction of a classified link byte. -/
def LinkClass.toInstr : LinkClass → Instr
  | .esc => .esc
  | .plus => .plus
  | .leadingPlusPair => .leadingPlusPair
  | .cr => .cr
  | .lf => .lf
  | .lit c => .lit c
  | .escaped c => .escaped c
  | .discard c => .discard c

end Sys2Proof
end

