-- ==== Sys2Proof/WellFormed.lean ====
section
/-!
DEFINITION. Which terms of `Instr` are instructions of the block: the limits rule R103 (30_encoding.md) puts on typed
operands, the address ranges of the command classes (R91) and the values a class stands for (R93, R95).  An address or
configuration operand out of range is NOT ill-formed: the operation itself answers it with an error result (R103, R201,
R51).
-/

namespace Sys2Proof

/-- The address field of `MLA`, `MTA` and `MSA` ranges over 0..30 (R91). -/
def addressField (a : Byte) : Bool := decide (a.toNat ≤ 30)

/-- The codes of group 00 that rule R91 names. -/
def namedGroup0 (c : Byte) : Bool :=
  c == 0x01#8 || c == 0x04#8 || c == 0x08#8 || c == 0x11#8 || c == 0x14#8 || c == 0x18#8 || c == 0x19#8

/-- `c` is a value that decodes to `Other(c)`: an unnamed code of group 00 or 0x7F (R93), or, for a decoder that does not
mask DIO8, any byte with bit 7 set (R221). -/
def unnamedCommand (c : Byte) : Bool :=
  decide (0x80 ≤ c.toNat) || (decide (c.toNat < 0x20) && !namedGroup0 c) || c == 0x7F#8

/-- `c` is of class `LIT`: no ESC, `+`, CR or LF (R95). -/
def literalChar (c : Byte) : Bool :=
  !(c == Config.chEsc || c == Config.chPlus || c == Config.chCr || c == Config.chLf)

/-- The well-formed instructions. -/
def Instr.wf : Instr → Bool
  | .sendGroupTrigger list => decide (list.length ≤ Config.getListMax)
  | .rxBurst bytes => !bytes.isEmpty
  | .mla a => addressField a
  | .mta a => addressField a
  | .msa s => addressField s
  | .other c => unnamedCommand c
  | .lit c => literalChar c
  | .sendByte _ _ => true
  | .receiveByte => true
  | .sendCommand _ => true
  | .sendData _ _ => true
  | .receiveMessage _ _ => true
  | .addressingSetup _ _ _ _ => true
  | .readStatusByte _ _ _ => true
  | .sendIfc => true
  | .popRecord => true
  | .deviceCycle => true
  | .listenOnlyCycle => true
  | .mainCycle => true
  | .setRole _ => true
  | .setListenOnly _ => true
  | .setStatus _ => true
  | .setSrq _ => true
  | .setConfig _ => true
  | .tick => true
  | .busDrive _ => true
  | .reset => true
  | .gtl => true
  | .sdc => true
  | .get => true
  | .llo => true
  | .dcl => true
  | .spe => true
  | .spd => true
  | .unl => true
  | .unt => true
  | .esc => true
  | .plus => true
  | .leadingPlusPair => true
  | .cr => true
  | .lf => true
  | .escaped _ => true
  | .discard _ => true

end Sys2Proof
end

