-- ==== Sys2Proof/Decode.lean ====
section
/-!
DEFINITION. Decoding and encoding, one interface at a time (30_encoding.md): the request and event interface (R100,
R101), the command byte accepted under ATN (R90, R221) and the link byte (R95).  Three interfaces share the byte values
(0x01 is `SEND_BYTE`, and it is `GTL`), so a decoder is told which interface the bytes came in on.

The request and event codes are the spec's.  Rule R100 defines no bit packing of operands: the layout of a message after
its code byte is this model's own (DESIGN CHOICE, log entry 2).  One message is one list of bytes: the code, then the
operands in the order of the tables of R100 and R101, a `Bool` as 00 or 01, an enumeration as its code, a `u16` low byte
first, and a sequence last (for `SEND_DATA` after `use_eoi`), up to the end of the message, as 95_test_vectors.md writes
`RX_BURST`.
-/

namespace Sys2Proof

/-- Why a message is no instruction (R103). -/
inductive DecodeError where
  /-- A message without a code byte. -/
  | empty
  /-- A code outside rules R100 and R101. -/
  | undefinedCode (code : Byte)
  /-- An operand outside its type: an enumeration code out of range, a `Bool` byte above 1, a list longer than 15. -/
  | operandOutOfType
  /-- Too few or too many operand bytes for the code. -/
  | wrongLength
  deriving DecidableEq, Repr

/-- The interface on which the bytes of an instruction arrive. -/
inductive Port where
  /-- Requests and environment events (R100, R101). -/
  | request
  /-- A byte accepted under ATN, with the parameter `MASK_DIO8` (R221). -/
  | command (maskDio8 : Bool)
  /-- One link byte, with the receiver context `rx_mode`, `rx_esc`, `rx_lead` (R95, R121). -/
  | link (mode : RxMode) (esc : Bool) (lead : RxLead)
  deriving DecidableEq, Repr

/-! ### Operand fields -/

/-- A `Bool` operand byte. -/
def boolByte (b : Bool) : Byte := if b then 1#8 else 0#8

/-- A `Bool` operand: 00 or 01 and nothing else. -/
def decodeBool (b : Byte) : Option Bool :=
  if b = 0#8 then some false else if b = 1#8 then some true else none

/-- `{Controller=0, Device=1}` (R100). -/
def Role.code : Role → Byte
  | .controller => 0#8
  | .device => 1#8

def decodeRole (b : Byte) : Option Role :=
  if b = 0#8 then some .controller else if b = 1#8 then some .device else none

/-- `{Send=0, Receive=1}` (R100). -/
def Direction.code : Direction → Byte
  | .send => 0#8
  | .receive => 1#8

def decodeDirection (b : Byte) : Option Direction :=
  if b = 0#8 then some .send else if b = 1#8 then some .receive else none

/-- `{UntilEOI=0, UntilChar=1, UntilTimeout=2}` (R100). -/
def RecvMode.code : RecvMode → Byte
  | .untilEoi => 0#8
  | .untilChar => 1#8
  | .untilTimeout => 2#8

def decodeRecvMode (b : Byte) : Option RecvMode :=
  if b = 0#8 then some .untilEoi else if b = 1#8 then some .untilChar
  else if b = 2#8 then some .untilTimeout else none

/-- A control line of `BUS_DRIVE`: 00 leaves it, 01 releases it, 02 asserts it (log entry 2). -/
def lineByte : Option Bool → Byte
  | none => 0#8
  | some false => 1#8
  | some true => 2#8

def decodeLine (b : Byte) : Option (Option Bool) :=
  if b = 0#8 then some none else if b = 1#8 then some (some false)
  else if b = 2#8 then some (some true) else none

/-- The optional `Rem.DIO` at the end of `BUS_DRIVE`: 00, or 01 and the byte (log entry 2). -/
def dioBytes : Option Byte → List Byte
  | none => [0#8]
  | some v => [1#8, v]

def decodeDio : List Byte → Option (Option Byte)
  | [t] => if t = 0#8 then some none else none
  | [t, v] => if t = 1#8 then some (some v) else none
  | _ => none

/-- The entries of a group-trigger list, three bytes each. -/
def targetBytes : List Target → List Byte
  | [] => []
  | t :: ts => t.pad :: t.sad :: boolByte t.useSad :: targetBytes ts

def decodeTargets : List Byte → Option (List Target)
  | [] => some []
  | pad :: sad :: u :: rest =>
    match decodeBool u, decodeTargets rest with
    | some useSad, some ts => some (⟨pad, sad, useSad⟩ :: ts)
    | _, _ => none
  | [_] => none
  | [_, _] => none

/-- The field codes of `SET_CONFIG`, in the order of rules R45 to R50, each with its value (log entry 2). -/
def ConfigWrite.bytes : ConfigWrite → List Byte
  | .myPad v => [0#8, v]
  | .mySad v => [1#8, v]
  | .sadValid v => [2#8, boolByte v]
  | .timeoutMs v => [3#8, v.setWidth 8, (v >>> 8).setWidth 8]
  | .eoiUse v => [4#8, boolByte v]
  | .eosMode v => [5#8, v]
  | .eotEnable v => [6#8, boolByte v]
  | .eotChar v => [7#8, v]
  | .autoRead v => [8#8, boolByte v]

def decodeConfigWrite : List Byte → Option ConfigWrite
  | [f, v] =>
    if f = 0#8 then some (.myPad v)
    else if f = 1#8 then some (.mySad v)
    else if f = 2#8 then (decodeBool v).map .sadValid
    else if f = 4#8 then (decodeBool v).map .eoiUse
    else if f = 5#8 then some (.eosMode v)
    else if f = 6#8 then (decodeBool v).map .eotEnable
    else if f = 7#8 then some (.eotChar v)
    else if f = 8#8 then (decodeBool v).map .autoRead
    else none
  | [f, lo, hi] => if f = 3#8 then some (.timeoutMs (hi ++ lo)) else none
  | _ => none

/-! ### Requests and events -/

/-- An operand that is out of its type refuses the message. -/
def typed (o : Option Instr) : Except DecodeError Instr :=
  match o with
  | some i => .ok i
  | none => .error .operandOutOfType

/-- A request or event without operands. -/
def noOperands (i : Instr) : List Byte → Except DecodeError Instr
  | [] => .ok i
  | _ :: _ => .error .wrongLength

def decodeSendByte : List Byte → Except DecodeError Instr
  | [v, e] => typed ((decodeBool e).map (.sendByte v))
  | _ => .error .wrongLength

def decodeSendCommand : List Byte → Except DecodeError Instr
  | [b] => .ok (.sendCommand b)
  | _ => .error .wrongLength

def decodeSendData : List Byte → Except DecodeError Instr
  | e :: buffer => typed ((decodeBool e).map (.sendData buffer))
  | [] => .error .wrongLength

def decodeReceiveMessage : List Byte → Except DecodeError Instr
  | [m, c] => typed ((decodeRecvMode m).map (fun mode => .receiveMessage mode c))
  | _ => .error .wrongLength

def decodeAddressingSetup : List Byte → Except DecodeError Instr
  | [pad, sad, u, d] =>
    match decodeBool u, decodeDirection d with
    | some useSad, some dir => .ok (.addressingSetup pad sad useSad dir)
    | _, _ => .error .operandOutOfType
  | _ => .error .wrongLength

def decodeReadStatusByte : List Byte → Except DecodeError Instr
  | [pad, sad, u] => typed ((decodeBool u).map (.readStatusByte pad sad))
  | _ => .error .wrongLength

/-- A list longer than 15 entries is outside its type (R103, R210). -/
def decodeGroupTrigger (ops : List Byte) : Except DecodeError Instr :=
  match decodeTargets ops with
  | some ts =>
    if ts.length ≤ Config.getListMax then .ok (.sendGroupTrigger ts) else .error .operandOutOfType
  | none => .error .operandOutOfType

def decodeSetRole : List Byte → Except DecodeError Instr
  | [r] => typed ((decodeRole r).map .setRole)
  | _ => .error .wrongLength

def decodeSetListenOnly : List Byte → Except DecodeError Instr
  | [b] => typed ((decodeBool b).map .setListenOnly)
  | _ => .error .wrongLength

def decodeSetStatus : List Byte → Except DecodeError Instr
  | [v] => .ok (.setStatus v)
  | _ => .error .wrongLength

def decodeSetSrq : List Byte → Except DecodeError Instr
  | [b] => typed ((decodeBool b).map .setSrq)
  | _ => .error .wrongLength

def decodeSetConfig (ops : List Byte) : Except DecodeError Instr :=
  typed ((decodeConfigWrite ops).map .setConfig)

/-- A burst holds at least one byte (R120).  Its upper bound `RX_BURST_MAX` is a parameter and is checked where the
burst is taken. -/
def decodeRxBurst : List Byte → Except DecodeError Instr
  | [] => .error .wrongLength
  | b :: bs => .ok (.rxBurst (b :: bs))

def decodeBusDrive : List Byte → Except DecodeError Instr
  | atn :: dav :: eoi :: nrfd :: ndac :: ifc :: srq :: ren :: dio =>
    match decodeLine atn, decodeLine dav, decodeLine eoi, decodeLine nrfd, decodeLine ndac, decodeLine ifc,
      decodeLine srq, decodeLine ren, decodeDio dio with
    | some a, some d, some e, some n, some k, some i, some q, some r, some v =>
      .ok (.busDrive ⟨a, d, e, n, k, i, q, r, v⟩)
    | _, _, _, _, _, _, _, _, _ => .error .operandOutOfType
  | _ => .error .wrongLength

/-- One message of the request and event interface, by the code tables of rules R100 and R101.  Every other code has no
meaning and is refused (R103). -/
def decodeMessage : List Byte → Except DecodeError Instr
  | [] => .error .empty
  | code :: ops =>
    match code.toNat with
    | 0x01 => decodeSendByte ops
    | 0x02 => noOperands .receiveByte ops
    | 0x03 => decodeSendCommand ops
    | 0x04 => decodeSendData ops
    | 0x05 => decodeReceiveMessage ops
    | 0x06 => decodeAddressingSetup ops
    | 0x07 => decodeReadStatusByte ops
    | 0x08 => noOperands .sendIfc ops
    | 0x09 => decodeGroupTrigger ops
    | 0x0A => noOperands .popRecord ops
    | 0x0B => noOperands .deviceCycle ops
    | 0x0C => noOperands .listenOnlyCycle ops
    | 0x0D => noOperands .mainCycle ops
    | 0x0E => decodeSetRole ops
    | 0x0F => decodeSetListenOnly ops
    | 0x10 => decodeSetStatus ops
    | 0x11 => decodeSetSrq ops
    | 0x12 => decodeSetConfig ops
    | 0x80 => decodeRxBurst ops
    | 0x81 => noOperands .tick ops
    | 0x82 => decodeBusDrive ops
    | 0x83 => noOperands .reset ops
    | _ => .error (.undefinedCode code)

/-! ### Command bytes -/

/-- The codes of group 00 (R91); the rest of the group is `Other` (R93). -/
def decodeGroup0 (c : Byte) : Cmd :=
  if c = 0x01#8 then .gtl
  else if c = 0x04#8 then .sdc
  else if c = 0x08#8 then .get
  else if c = 0x11#8 then .llo
  else if c = 0x14#8 then .dcl
  else if c = 0x18#8 then .spe
  else if c = 0x19#8 then .spd
  else .other c

/-- `decode(b)` of rule R221. -/
def decodeCommand (maskDio8 : Bool) (b : Byte) : Cmd :=
  if !maskDio8 && b.getLsbD 7 then .other b
  else
    let c := b &&& 0x7F#8
    let a := c &&& 0x1F#8
    if c = 0x3F#8 then .unl
    else if c = 0x5F#8 then .unt
    else if c &&& 0x60#8 = 0x20#8 then .mla a
    else if c &&& 0x60#8 = 0x40#8 then .mta a
    else if c &&& 0x60#8 = 0x60#8 then (if a.toNat ≤ 30 then .msa a else .other c)
    else decodeGroup0 c

/-- The byte of a command (R91, R92). -/
def Cmd.byte : Cmd → Byte
  | .gtl => 0x01#8
  | .sdc => 0x04#8
  | .get => 0x08#8
  | .llo => 0x11#8
  | .dcl => 0x14#8
  | .spe => 0x18#8
  | .spd => 0x19#8
  | .mla a => 0x20#8 + a
  | .unl => 0x3F#8
  | .mta a => 0x40#8 + a
  | .unt => 0x5F#8
  | .msa s => 0x60#8 + s
  | .other c => c

/-! ### Link bytes -/

/-- The class of a link byte in its context: `Discard` mode first, then an armed escape, then the value (R121, R95); a
`+` is the second of a leading pair exactly when one is held (R123, R124). -/
def classify (mode : RxMode) (esc : Bool) (lead : RxLead) (c : Byte) : LinkClass :=
  if mode = .discard then .discard c
  else if esc then .escaped c
  else if c = Config.chEsc then .esc
  else if c = Config.chPlus then (if lead = .onePlus then .leadingPlusPair else .plus)
  else if c = Config.chCr then .cr
  else if c = Config.chLf then .lf
  else .lit c

/-! ### All interfaces together -/

/-- The one byte of an interface that takes one byte. -/
def oneByte (f : Byte → Instr) : List Byte → Except DecodeError Instr
  | [b] => .ok (f b)
  | [] => .error .empty
  | _ :: _ :: _ => .error .wrongLength

/-- Decoding, total on any bytes. -/
def decode : Port → List Byte → Except DecodeError Instr
  | .request, bs => decodeMessage bs
  | .command m, bs => oneByte (fun b => (decodeCommand m b).toInstr) bs
  | .link mode esc lead, bs => oneByte (fun c => (classify mode esc lead c).toInstr) bs

/-- The interface an instruction arrives on.  For a link class it is the plainest context in which a byte has that
class; for `Other(c)` with bit 7 of `c` set it is the decoder that does not mask DIO8. -/
def Instr.port : Instr → Port
  | .sendByte _ _ => .request
  | .receiveByte => .request
  | .sendCommand _ => .request
  | .sendData _ _ => .request
  | .receiveMessage _ _ => .request
  | .addressingSetup _ _ _ _ => .request
  | .readStatusByte _ _ _ => .request
  | .sendIfc => .request
  | .sendGroupTrigger _ => .request
  | .popRecord => .request
  | .deviceCycle => .request
  | .listenOnlyCycle => .request
  | .mainCycle => .request
  | .setRole _ => .request
  | .setListenOnly _ => .request
  | .setStatus _ => .request
  | .setSrq _ => .request
  | .setConfig _ => .request
  | .rxBurst _ => .request
  | .tick => .request
  | .busDrive _ => .request
  | .reset => .request
  | .gtl => .command true
  | .sdc => .command true
  | .get => .command true
  | .llo => .command true
  | .dcl => .command true
  | .spe => .command true
  | .spd => .command true
  | .unl => .command true
  | .mla _ => .command true
  | .unt => .command true
  | .mta _ => .command true
  | .msa _ => .command true
  | .other c => .command (!c.getLsbD 7)
  | .esc => .link .normal false .start
  | .plus => .link .normal false .start
  | .leadingPlusPair => .link .normal false .onePlus
  | .cr => .link .normal false .start
  | .lf => .link .normal false .start
  | .lit _ => .link .normal false .start
  | .escaped _ => .link .normal true .body
  | .discard _ => .link .discard false .start

/-- The bytes of an instruction on its interface. -/
def encode : Instr → List Byte
  | .sendByte v e => [0x01#8, v, boolByte e]
  | .receiveByte => [0x02#8]
  | .sendCommand b => [0x03#8, b]
  | .sendData buffer e => 0x04#8 :: boolByte e :: buffer
  | .receiveMessage m c => [0x05#8, m.code, c]
  | .addressingSetup pad sad u d => [0x06#8, pad, sad, boolByte u, d.code]
  | .readStatusByte pad sad u => [0x07#8, pad, sad, boolByte u]
  | .sendIfc => [0x08#8]
  | .sendGroupTrigger ts => 0x09#8 :: targetBytes ts
  | .popRecord => [0x0A#8]
  | .deviceCycle => [0x0B#8]
  | .listenOnlyCycle => [0x0C#8]
  | .mainCycle => [0x0D#8]
  | .setRole r => [0x0E#8, r.code]
  | .setListenOnly b => [0x0F#8, boolByte b]
  | .setStatus v => [0x10#8, v]
  | .setSrq b => [0x11#8, boolByte b]
  | .setConfig w => 0x12#8 :: w.bytes
  | .rxBurst bs => 0x80#8 :: bs
  | .tick => [0x81#8]
  | .busDrive d =>
    0x82#8 :: lineByte d.atn :: lineByte d.dav :: lineByte d.eoi :: lineByte d.nrfd :: lineByte d.ndac ::
      lineByte d.ifc :: lineByte d.srq :: lineByte d.ren :: dioBytes d.dio
  | .reset => [0x83#8]
  | .gtl => [Cmd.gtl.byte]
  | .sdc => [Cmd.sdc.byte]
  | .get => [Cmd.get.byte]
  | .llo => [Cmd.llo.byte]
  | .dcl => [Cmd.dcl.byte]
  | .spe => [Cmd.spe.byte]
  | .spd => [Cmd.spd.byte]
  | .unl => [Cmd.unl.byte]
  | .mla a => [(Cmd.mla a).byte]
  | .unt => [Cmd.unt.byte]
  | .mta a => [(Cmd.mta a).byte]
  | .msa s => [(Cmd.msa s).byte]
  | .other c => [(Cmd.other c).byte]
  | .esc => [Config.chEsc]
  | .plus => [Config.chPlus]
  | .leadingPlusPair => [Config.chPlus]
  | .cr => [Config.chCr]
  | .lf => [Config.chLf]
  | .lit c => [c]
  | .escaped c => [c]
  | .discard c => [c]

/-! ### The words of the opcode table -/

/-- How many operand bytes the shortest message with this code has. -/
def operandBytes (code : Nat) : Nat :=
  match code with
  | 0x01 => 2
  | 0x03 => 1
  | 0x04 => 1
  | 0x05 => 2
  | 0x06 => 4
  | 0x07 => 3
  | 0x0E => 1
  | 0x0F => 1
  | 0x10 => 1
  | 0x11 => 1
  | 0x12 => 2
  | 0x80 => 1
  | 0x82 => 9
  | _ => 0

/-- The low `n` bytes of `w`, the least significant first. -/
def bytesOf : (n : Nat) → (w : Nat) → List Byte
  | 0, _ => []
  | n + 1, w => BitVec.ofNat 8 w :: bytesOf n (w / 256)

/-- The bytes of a table word: those `nbits` gives, then zero operand bytes up to the shortest message of its code. -/
def tableBytes (nbits w : Nat) : List Byte :=
  let bs := bytesOf ((nbits + 7) / 8) w
  bs ++ List.replicate (operandBytes (w % 256) + 1 - bs.length) 0#8

/-- The interface on which a table word is taken, and its instruction.  The table gives the rows of three interfaces in
one 8-bit number space, and most values stand in more than one row: a request or event code is taken first, then the link
characters ESC and `+`, then the command byte (log entry 3). -/
def decodeTablePort (nbits w : Nat) : Option (Port × Instr) :=
  match decodeMessage (tableBytes nbits w) with
  | .ok i => some (.request, i)
  | .error (.undefinedCode c) =>
    if nbits ≤ 8 then
      if c = Config.chEsc ∨ c = Config.chPlus then
        some (.link .normal false .start, (classify .normal false .start c).toInstr)
      else some (.command true, (decodeCommand true c).toInstr)
    else none
  | .error _ => none

/-- The instruction the decoder reads from a word of spec/opcode_table.json. -/
def decodeTableWord (nbits w : Nat) : Option Instr := (decodeTablePort nbits w).map (·.2)

end Sys2Proof
end

