-- ==== Sys2Proof/Machine/State.lean ====
section
/-!
DEFINITION. The state of the block (10_state.md), as plain data: the seven groups of rule R20, the environment's share of
the state (`Rem`, rule R340; the schedule of its moves; the parameters of the launch), and the model's own registers
(`ret`, `draws`).  Every field's reset value is rule R53's, or named in a log entry.
-/

namespace Sys2Proof.Machine

/-! ### Results (R102, R300) -/

/-- The error kinds of rule R300. -/
inductive ErrKind where
  | handshakeTimeout
  | busContention
  | roleViolation
  | invalidAddress
  | invalidConfig
  deriving DecidableEq, Repr

/-- The end reasons of `RECEIVE_MESSAGE` (R102). -/
inductive EndReason where
  | eoi
  | stopChar
  | timeout
  deriving DecidableEq, Repr

/-- What an operation returns (R100, R102), and what a `WAIT` returns to its operation (R150). -/
inductive Ret where
  /-- `Ok()`. -/
  | ok
  /-- `Ok(byte, eoi)` of `RECEIVE_BYTE`. -/
  | okByteEoi (byte : Byte) (eoi : Bool)
  /-- `Ok(u8)` of `READ_STATUS_BYTE`. -/
  | okByte (byte : Byte)
  /-- `Err(kind)`. -/
  | err (kind : ErrKind)
  /-- `End(reason)` of `RECEIVE_MESSAGE`. -/
  | ended (reason : EndReason)
  /-- `None` of `POP_RECORD`. -/
  | noRecord
  /-- `Some(image)` of `POP_RECORD`. -/
  | record (image : List Byte)
  /-- `()` of the cycles. -/
  | done
  /-- `Met` of a `WAIT`. -/
  | met
  /-- `TimedOut` of a `WAIT`. -/
  | timedOut
  deriving DecidableEq, Repr

/-! ### The sequencer position (R21) -/

/-- The condition of a `WAIT` (R150), as rules R155 and R160 use it. -/
inductive WaitCond where
  /-- `not Bus.NRFD` -/
  | nrfdReleased
  /-- `not Bus.NDAC` -/
  | ndacReleased
  /-- `Bus.DAV` -/
  | davAsserted
  /-- `not Bus.DAV` -/
  | davReleased
  deriving DecidableEq, Repr

/-- The lines of `WAIT` (R150); `w5` is the jump back to `w3`. -/
inductive WaitLine where
  | w1
  | w2
  | w3
  | w4
  deriving DecidableEq, Repr

/-- The lines of `BOOT` (R342); `b3` has no action. -/
inductive BootLine where
  | b1
  | b2
  | b4
  | b5
  deriving DecidableEq, Repr

/-- The lines of `SEND_BYTE` (R155).  At `s4` and `s7` the operation is inside its `WAIT`, or has just returned from
it. -/
inductive SendByteLine where
  | s1
  | s2
  | s3
  | s4
  | s5
  | s6
  | s7
  | s8
  | s9
  deriving DecidableEq, Repr

/-- The lines of `RECEIVE_BYTE` (R160).  At `r4` and `r8` the operation is inside its `WAIT`, or has just returned from
it. -/
inductive ReceiveByteLine where
  | r1
  | r2
  | r3
  | r4
  | r5
  | r6
  | r7
  | r8
  | r9
  | r10
  deriving DecidableEq, Repr

/-- The lines of `SEND_COMMAND` (R180): `c1` is the role check with the drive of `c2`; at `c3` the byte is being sent or
has just been sent. -/
inductive SendCommandLine where
  | c1
  | c3
  | c4
  deriving DecidableEq, Repr

/-- The lines of `RECEIVE_MESSAGE` (R185): at `m1` a byte is being received or has just been received; `m2` holds the
byte received. -/
inductive ReceiveMessageLine where
  | m1
  | m2 (b : Byte) (eoi : Bool)
  | m3 (reason : EndReason)
  deriving DecidableEq, Repr

/-- The lines of `READ_STATUS_BYTE` (R204) that call: `todo` are the commands still to send, `sb` is the byte read. -/
inductive ReadStatusLine where
  | p3 (todo : List Byte)
  | p4
  | p5 (sb : Byte)
  | p6 (sb : Byte)
  deriving DecidableEq, Repr

/-- The lines of `SEND_IFC` (R208): `i1` is the role check with the drive of `i2`. -/
inductive SendIfcLine where
  | i1
  | i3
  | i4
  deriving DecidableEq, Repr

/-- The two calls in the body of `SEND_GROUP_TRIGGER`'s loop (R210). -/
inductive GroupTriggerLine where
  | addressing
  | trigger
  deriving DecidableEq, Repr

/-- The lines of `dev_clear()` (R245) and of `ifc_reset()` (R251), which do the same: the flags, `status`, SRQ. -/
inductive DevClearLine where
  | e1
  | e2
  | e3
  deriving DecidableEq, Repr

/-- The lines of `DEVICE_CYCLE` (R240): `v1` is the check of `v0` with the sample of `v1`; a line named `Ret` is where the
call of that line returns to, and `v3Ret`, `v3Srq` and `v3Disarm` are the lines of `serial_poll_reply()` after its
`SEND_BYTE` (R249). -/
inductive DeviceCycleLine where
  | v1
  | v2
  | v2Ret
  | v3
  | v3Ret
  | v3Srq
  | v3Disarm
  | v4
  | v4Ret
  | v5
  deriving DecidableEq, Repr

/-- The lines of `LISTEN_ONLY_CYCLE` (R270): `l1` is the check of `l0` with the first line of `l1`, and `l1Talker` and
`l1Acceptor` are the two lines of `l1` after it. -/
inductive ListenOnlyLine where
  | l1
  | l1Talker
  | l1Acceptor
  | l2
  | l2Ret
  | l3
  | l3Ret
  deriving DecidableEq, Repr

/-- A record as rule R133 reads it out of a popped image. -/
structure Record where
  flag : Byte
  len : Byte
  payload : List Byte
  deriving DecidableEq, Repr

/-- The lines of `MAIN_CYCLE` (R280): `k2` holds the record popped at `k1`, `k2Ret` is where `SEND_DATA` returns to (R282),
and `k2Byte` where a byte of a device-role record returns to (R283), with the bytes still to send. -/
inductive MainCycleLine where
  | k1
  | k2 (popped : Option Record)
  | k2Ret
  | k2Byte (todo : List Byte)
  | k3
  | k3Ret
  deriving DecidableEq, Repr

/-- The lines of `SET_ROLE` (R255) after its first, which writes `role`: the device state; ATN, IFC and SRQ; DAV, EOI and
the data lines; the line of the new role; the persist request with the return. -/
inductive SetRoleLine where
  | t2
  | t3
  | t4
  | t5
  | t6
  deriving DecidableEq, Repr

/-- The lines of `SET_LISTEN_ONLY` (R257) after its first, which writes `listen_only`: the device state with SRQ; the two
lines of Device role; the persist request with the return. -/
inductive SetListenOnlyLine where
  | n2
  | n3
  | n4
  | n5
  deriving DecidableEq, Repr

/-- A pair (operation, step) of rule R21, with the operation's operands and the local variables of its pseudocode. -/
inductive Frame where
  | boot (line : BootLine)
  | wait (cond : WaitCond) (line : WaitLine)
  | sendByte (value : Byte) (assertEoi : Bool) (line : SendByteLine)
  | receiveByte (line : ReceiveByteLine)
  | sendCommand (byte : Byte) (line : SendCommandLine)
  /-- Line `d2` of rule R182, inside a `SEND_BYTE`; `todo` are the bytes after it. -/
  | sendData (todo : List Byte) (useEoi : Bool)
  | receiveMessage (mode : RecvMode) (stopChar : Byte) (line : ReceiveMessageLine)
  /-- Line `a4` of rule R200, inside a `SEND_COMMAND`; `todo` are the commands after it. -/
  | addressingSetup (todo : List Byte)
  | readStatusByte (pad sad : Byte) (useSad : Bool) (line : ReadStatusLine)
  | sendIfc (line : SendIfcLine)
  /-- Line `g2` of rule R210; `todo` are the entries after the one at work, `first` the first error so far. -/
  | groupTrigger (todo : List Target) (first : Option ErrKind) (line : GroupTriggerLine)
  | devClear (line : DevClearLine)
  | deviceCycle (line : DeviceCycleLine)
  | listenOnlyCycle (line : ListenOnlyLine)
  | mainCycle (line : MainCycleLine)
  | setRole (new : Role) (line : SetRoleLine)
  | setListenOnly (on : Bool) (line : SetListenOnlyLine)
  deriving DecidableEq, Repr

/-! ### The groups of the state -/

/-- Receiver state (R22 to R29), with the enable of the link receive interrupt (R305, R341). -/
structure Receiver where
  /-- `ring[0..255]` (R22, R60): rising addresses, no entry equal to `Memory.unlisted`. -/
  ring : List Host.Cell
  /-- `rd` (R23). -/
  rd : Byte
  /-- `head` (R24). -/
  head : Byte
  /-- `rx_len` (R25). -/
  len : Byte
  /-- `rx_cmd` (R26). -/
  cmd : Bool
  /-- `rx_esc` (R27). -/
  esc : Bool
  /-- `rx_lead` (R28). -/
  lead : RxLead
  /-- `rx_mode` (R29). -/
  mode : RxMode
  /-- Link receive is enabled: from line `b4` of boot (R305, R341, R342). -/
  enabled : Bool
  deriving DecidableEq, Repr

/-- The transceiver direction `xcvr` (R33). -/
inductive Xcvr where
  | talk
  | listen
  deriving DecidableEq, Repr

/-- Handshake state (R31 to R34). -/
structure Handshake where
  /-- `tmo_cnt` (R31). -/
  tmoCnt : Word16
  /-- `tick_en` (R32). -/
  tickEn : Bool
  /-- `xcvr` (R33). -/
  xcvr : Xcvr
  /-- `lat_data` (R34). -/
  latData : Byte
  /-- `lat_eoi` (R34). -/
  latEoi : Bool
  deriving DecidableEq, Repr

/-- A drive of every bus line: `Drv` (R35) or `Rem` (R36).  True means asserted; bit i of `dio` is line DIO(i+1) (R81). -/
structure Drives where
  atn : Bool
  dav : Bool
  eoi : Bool
  nrfd : Bool
  ndac : Bool
  ifc : Bool
  srq : Bool
  ren : Bool
  dio : Byte
  deriving DecidableEq, Repr

/-- Every line released (R35). -/
def Drives.released : Drives := ⟨false, false, false, false, false, false, false, false, 0x00#8⟩

/-- Device-mode state (R38 to R41). -/
structure Device where
  /-- `listening` (R38). -/
  listening : Bool
  /-- `talking` (R39). -/
  talking : Bool
  /-- `sp_armed` (R40). -/
  spArmed : Bool
  /-- `status` (R41). -/
  status : Byte
  deriving DecidableEq, Repr

/-- The device state with every flag cleared and the status byte zero: the source's "Idle" (R42). -/
def Device.cleared : Device := ⟨false, false, false, 0x00#8⟩

/-- The configuration registers (R43 to R50). -/
structure ConfigRegs where
  role : Role
  listenOnly : Bool
  myPad : Byte
  mySad : Byte
  sadValid : Bool
  timeoutMs : Word16
  eoiUse : Bool
  eosMode : BitVec 2
  eotEnable : Bool
  eotChar : Byte
  autoRead : Bool
  deriving DecidableEq, Repr

/-- `CFG_INIT`: what the external store holds for boot (R7, R342).  `timeoutMs = none` is a store that holds no timeout
(R46).  `eosMode` is a byte, since the store may hold a value out of range (R344). -/
structure Store where
  role : Role
  listenOnly : Bool
  myPad : Byte
  mySad : Byte
  sadValid : Bool
  timeoutMs : Option Word16
  eoiUse : Bool
  eosMode : Byte
  eotEnable : Bool
  eotChar : Byte
  autoRead : Bool
  deriving DecidableEq, Repr

/-- The configuration registers a store gives: a missing timeout is `TIMEOUT_DEFAULT` (R46, R342 line `b1`). -/
def Store.regs (c : Store) : ConfigRegs :=
  { role := c.role, listenOnly := c.listenOnly, myPad := c.myPad, mySad := c.mySad, sadValid := c.sadValid,
    timeoutMs := c.timeoutMs.getD Config.timeoutDefault, eoiUse := c.eoiUse, eosMode := c.eosMode.setWidth 2,
    eotEnable := c.eotEnable, eotChar := c.eotChar, autoRead := c.autoRead }

/-- The names `persist_request` carries: a configuration field (R51), or the role or listen-only (R255, R257). -/
inductive FieldName where
  | role
  | listenOnly
  | myPad
  | mySad
  | sadValid
  | timeoutMs
  | eoiUse
  | eosMode
  | eotEnable
  | eotChar
  | autoRead
  deriving DecidableEq, Repr

/-- `dev_event` entries (R52, R247). -/
inductive DevEvent where
  | gtl
  | get
  | llo
  deriving DecidableEq, Repr

/-- `lo_log` entries (R52, R271): a symbolic name's characters (R224), or `Raw(b)`. -/
inductive LogEntry where
  | named (text : List Char)
  | raw (b : Byte)
  deriving DecidableEq, Repr

/-- The output port histories (R52), oldest entry first, and the results of the requests (R100, R345). -/
structure Ports where
  linkTx : List Byte
  dispatch : List (Byte × List Byte)
  devEvent : List DevEvent
  loLog : List LogEntry
  persistRequest : List FieldName
  results : List Ret
  deriving DecidableEq, Repr

/-- Nothing emitted. -/
def Ports.empty : Ports := ⟨[], [], [], [], [], []⟩

/-- One entry of the environment's schedule: it makes no move before the block's next step, or a message arrives on the
request and event interface (a request waits until the block can take it). -/
inductive Item where
  | pass
  | message (bytes : List Byte)
  deriving DecidableEq, Repr

/-- The parameters of the launch: `RX_BURST_MAX` (OPEN, at least 1, R7: boot refuses the launch otherwise) and `MASK_DIO8`
(U6). -/
structure Params where
  rxBurstMax : Nat
  maskDio8 : Bool
  deriving DecidableEq, Repr

/-- The state of the block and of what it is connected to. -/
structure State where
  /-- Receiver state. -/
  rx : Receiver
  /-- Handshake state. -/
  hs : Handshake
  /-- The block's own drives, `Drv` (R35). -/
  drv : Drives
  /-- Device-mode state. -/
  dev : Device
  /-- Configuration registers. -/
  cfg : ConfigRegs
  /-- Output port histories. -/
  out : Ports
  /-- The sequencer position (R21), innermost pair first; `[]` is `Idle`. -/
  pc : List Frame
  /-- The value the last finished operation or `WAIT` returned to its caller: the model's own register. -/
  ret : Ret
  /-- The environment's drives, `Rem` (R36). -/
  rem : Drives
  /-- The environment's schedule, the next move first. -/
  inbox : List Item
  /-- `CFG_INIT` in the external store. -/
  store : Store
  /-- The parameters of the launch. -/
  par : Params
  /-- How many times the ring's contents have been drawn anew (log entry 1): the model's own counter. -/
  draws : Nat
  deriving DecidableEq, Repr

/-- The block has no faults and no traps: "An operation that fails ends with an error result" (60_exceptions.md, R300,
R301).  So this type has no constructor, and no step of the model ends in a fault. -/
inductive Fault where
  deriving DecidableEq, Repr

/-- Why a step has no meaning.  Each is safe: the model stops where the spec gives no behaviour. -/
inductive Refusal where
  /-- Raised by an arm of `exec` that has no meaning yet.  Safe. -/
  | notModelled (mnemonic : String)
  /-- Raised by `step`: the message on the request and event interface is no instruction (R103).  Safe. -/
  | undefinedMessage (why : DecodeError)
  /-- Raised by the meaning of a request that is issued while an operation runs: the environment has no such move (R315,
  R360).  `step` never raises it, because it keeps a request until the block is idle (R285).  Safe. -/
  | requestWhileBusy
  /-- Raised by `RX_BURST` with more than `RX_BURST_MAX` bytes: an operand outside its type (R101, R103).  Safe. -/
  | burstTooLong
  /-- Raised by boot at line `b1` when `CFG_INIT` is out of range: "refuses the launch" (R344); or when the parameter
  `RX_BURST_MAX` is 0, which is no value of it (R7, U4).  Safe. -/
  | launchRefused
  deriving DecidableEq, Repr

/-- Receiver state after `RESET` (R53, R340), with link receive masked (R341). -/
def Receiver.reset (ring : List Host.Cell) : Receiver :=
  { ring := ring, rd := 0x00#8, head := 0x00#8, len := 0x00#8, cmd := false, esc := false, lead := .start,
    mode := .normal, enabled := false }

/-- Handshake state after `RESET` (R53, R340). -/
def Handshake.reset : Handshake :=
  { tmoCnt := 0#16, tickEn := false, xcvr := .listen, latData := 0x00#8, latEoi := false }

/-- The `CFG_INIT` of `State.reset`: configuration `CFG0` of 95_test_vectors.md in Controller role, with no timeout in
the store (DESIGN CHOICE, log entry 4). -/
def Store.atReset : Store :=
  { role := .controller, listenOnly := false, myPad := 5#8, mySad := 0#8, sadValid := false, timeoutMs := none,
    eoiUse := true, eosMode := 3#8, eotEnable := false, eotChar := 0x00#8, autoRead := false }

/-- The parameters of `State.reset`: `MASK_DIO8 = true` (R7); `RX_BURST_MAX` is a DESIGN CHOICE (log entry 4). -/
def Params.atReset : Params := { rxBurstMax := 256, maskDio8 := true }

/-- The machine right after power-on (R340, R341, R53): every field at its reset value, the configuration registers from
`CFG_INIT`, no history, the sequencer at line `b1` of boot.  The environment drives no line (DESIGN CHOICE, log entry 5)
and has no move scheduled; the ring lists nothing (log entry 6). -/
def State.reset : State :=
  { rx := Receiver.reset [], hs := Handshake.reset, drv := Drives.released, dev := Device.cleared,
    cfg := Store.atReset.regs, out := Ports.empty, pc := [.boot .b1], ret := .done, rem := Drives.released,
    inbox := [], store := Store.atReset, par := Params.atReset, draws := 0 }

end Sys2Proof.Machine
end

