-- ==== Sys2Proof/Machine/Ops.lean ====
section
/-!
DEFINITION. The named operations over memory, bus lines, the sequencer position and the ports: the primitives of rule R9
(00_scope.md).  Every rule's pseudocode is written with these.
-/

namespace Sys2Proof.Machine

/-! ### The ring address space (R60, R61) -/

/-- What a ring byte that nothing has written reads as (DESIGN CHOICE, log entry 6; unobservable by R64). -/
def Memory.unlisted : Byte := 0x00#8

/-- Reading one byte. -/
def Memory.read : List Host.Cell → Nat → Byte
  | [], _ => Memory.unlisted
  | (a, v) :: m, k => if a = k then v else Memory.read m k

/-- Writing one byte, keeping the canonical form. -/
def Memory.write : List Host.Cell → Nat → Byte → List Host.Cell
  | [], k, v => if v = Memory.unlisted then [] else [(k, v)]
  | (a, w) :: m, k, v =>
    if k < a then (if v = Memory.unlisted then (a, w) :: m else (k, v) :: (a, w) :: m)
    else if k = a then (if v = Memory.unlisted then m else (k, v) :: m)
    else (a, w) :: Memory.write m k v

/-- Addresses rise strictly from `lo`, lie in the 256-byte ring (R60), and no entry is what an unlisted address reads
as. -/
def Memory.wfFrom : Nat → List Host.Cell → Bool
  | _, [] => true
  | lo, (a, v) :: m =>
    decide (lo ≤ a) && decide (a < Config.ringSize) && decide (v ≠ Memory.unlisted) && Memory.wfFrom (a + 1) m

/-- The canonical form of the ring's contents. -/
def Memory.wf (m : List Host.Cell) : Bool := Memory.wfFrom 0 m

/-- The canonical form of `n` bytes given by `f`, from address `a` on. -/
def Memory.fill (f : Nat → Byte) : (n a : Nat) → List Host.Cell
  | 0, _ => []
  | n + 1, a =>
    if f a = Memory.unlisted then Memory.fill f n (a + 1) else (a, f a) :: Memory.fill f n (a + 1)

/-- `MemRead(a, 1)` (R61): the 8-bit address is taken modulo 256 by its type. -/
def Receiver.memRead (r : Receiver) (a : Byte) : Byte := Memory.read r.ring a.toNat

/-- `MemWrite(a, 1, v)` (R61). -/
def Receiver.memWrite (r : Receiver) (a v : Byte) : Receiver :=
  { r with ring := Memory.write r.ring a.toNat v }

/-! ### The bus (R36) -/

/-- Wired-OR of two drives, line by line (R36). -/
def Drives.wiredOr (x y : Drives) : Drives :=
  { atn := x.atn || y.atn, dav := x.dav || y.dav, eoi := x.eoi || y.eoi, nrfd := x.nrfd || y.nrfd,
    ndac := x.ndac || y.ndac, ifc := x.ifc || y.ifc, srq := x.srq || y.srq, ren := x.ren || y.ren,
    dio := x.dio ||| y.dio }

/-- `Bus`: the observed state of every line (R36). -/
def State.bus (s : State) : Drives := s.drv.wiredOr s.rem

/-- The electrical levels of DIO8..DIO1 as a byte, high = 1 (R80). -/
def State.dioLevels (s : State) : Byte := ~~~s.bus.dio

/-- The electrical level of a control line, high = true: active-low (R80). -/
def levelOf (asserted : Bool) : Bool := !asserted

/-- Transceiver line talk-enable (R86). -/
def State.te (s : State) : Bool := decide (s.hs.xcvr = .talk)

/-- Transceiver line pullup-enable (R86). -/
def State.pe (s : State) : Bool := decide (s.hs.xcvr = .talk)

/-- Transceiver role line system-control (R37, R87). -/
def State.sc (s : State) : Bool := decide (s.cfg.role = .controller)

/-- Transceiver role line direction-control (R37, R87). -/
def State.dc (s : State) : Bool := decide (s.cfg.role = .device)

/-- Talk configuration, line `s1` (R155, R156). -/
def State.talkConfig (s : State) : State :=
  { s with hs.xcvr := .talk, drv.nrfd := false, drv.ndac := false }

/-- Listen configuration with the talker lines released, line `r1` (R160, R161; R257). -/
def State.listenConfig (s : State) : State :=
  { s with hs.xcvr := .listen, drv.dav := false, drv.eoi := false, drv.dio := 0x00#8 }

/-- The idle acceptor lines: NDAC held, NRFD released (R165, R257, R270). -/
def State.holdAcceptor (s : State) : State := { s with drv.ndac := true, drv.nrfd := false }

/-- Releasing DAV, EOI and the data lines (R155, the timeout at `s7`; R255, R270). -/
def State.releaseTalker (s : State) : State :=
  { s with drv.dav := false, drv.eoi := false, drv.dio := 0x00#8 }

/-- `idle_drives(role)` (R343): what `SET_ROLE` sets (R255), for the role given, on one line of that rule. -/
def State.idleDrives (s : State) (role : Role) : State :=
  match role with
  | .controller =>
    { s with hs.xcvr := .talk,
             drv := { atn := false, dav := false, eoi := false, nrfd := false, ndac := false, ifc := false,
                      srq := false, ren := true, dio := 0x00#8 } }
  | .device =>
    { s with hs.xcvr := .listen,
             drv := { atn := false, dav := false, eoi := false, nrfd := false, ndac := true, ifc := false,
                      srq := false, ren := false, dio := 0x00#8 } }

/-! ### The sequencer position (R21) -/

/-- `pc <- s` within the operations `frames`, innermost first. -/
def State.goto (s : State) (frames : List Frame) : State := { s with pc := frames }

/-- `return v` and `raise E` (R9): the operation ends with result `r`.  Its caller, the top of `rest`, gets `r`; an
operation that nobody called was a request, and its result is recorded (R100, R345). -/
def State.finish (s : State) (r : Ret) (rest : List Frame) : State :=
  match rest with
  | [] => { s with pc := [], ret := r, out.results := s.out.results ++ [r] }
  | f :: fs => { s with pc := f :: fs, ret := r }

/-- `raise E` after the restore actions of the operation's rule (R9, R300): a result code and no trap. -/
def State.raise (s : State) (e : ErrKind) (rest : List Frame) : State := s.finish (.err e) rest

/-- A request is taken when `pc = Idle` (R285): `t` is the state its first step leaves. -/
def State.accept (s t : State) : Host.Outcome State Fault Refusal :=
  match s.pc with
  | [] => .next t
  | _ :: _ => .refused .requestWhileBusy

/-! ### The output ports (R52): each only ever grows -/

/-- `emit link_tx(b)`. -/
def State.emitLink (s : State) (b : Byte) : State := { s with out.linkTx := s.out.linkTx ++ [b] }

/-- `emit dispatch((flag, payload))`. -/
def State.emitDispatch (s : State) (flag : Byte) (payload : List Byte) : State :=
  { s with out.dispatch := s.out.dispatch ++ [(flag, payload)] }

/-- `emit dev_event(e)`. -/
def State.emitDevEvent (s : State) (e : DevEvent) : State :=
  { s with out.devEvent := s.out.devEvent ++ [e] }

/-- `emit lo_log(e)`. -/
def State.emitLog (s : State) (e : LogEntry) : State := { s with out.loLog := s.out.loLog ++ [e] }

/-- `emit persist_request(f)`. -/
def State.emitPersist (s : State) (f : FieldName) : State :=
  { s with out.persistRequest := s.out.persistRequest ++ [f] }

end Sys2Proof.Machine
end

