-- ==== Sys2Proof/Machine/Operands.lean ====
section
/-!
DEFINITION. Operand forms: numeric codes of results (R102, R300), the command sequences of the addressing setups (R202,
R203, R204), the EOS bytes (R98), the record view of a popped image (R132, R133), symbolic command names (R224), and the
fields of `SET_CONFIG` (R51).
-/

namespace Sys2Proof.Machine

/-! ### Result codes -/

/-- The numeric code of an error kind (R300). -/
def ErrKind.code : ErrKind → Nat
  | .handshakeTimeout => 1
  | .busContention => 2
  | .roleViolation => 3
  | .invalidAddress => 4
  | .invalidConfig => 5

/-- The numeric code of a result `Ok(v)` or `Err(kind)` (R300); the other results of R100 and R102 have none. -/
def Ret.resultCode : Ret → Option Nat
  | .ok => some 0
  | .okByteEoi _ _ => some 0
  | .okByte _ => some 0
  | .err kind => some kind.code
  | .ended _ => none
  | .noRecord => none
  | .record _ => none
  | .done => none
  | .met => none
  | .timedOut => none

/-- The numeric code of an end reason (R102). -/
def EndReason.code : EndReason → Nat
  | .eoi => 0
  | .stopChar => 1
  | .timeout => 2

/-! ### Command sequences -/

/-- `[MSA s]`, present only when `use_sad` (R107). -/
def msaIf (sad : Byte) (useSad : Bool) : List Byte := if useSad then [(Cmd.msa sad).byte] else []

/-- SEND SETUP (R202). -/
def sendSetup (pad sad : Byte) (useSad : Bool) : List Byte :=
  [Cmd.unl.byte, (Cmd.mta Config.ctrlPad).byte, (Cmd.mla pad).byte] ++ msaIf sad useSad

/-- RECEIVE SETUP (R203). -/
def receiveSetup (pad sad : Byte) (useSad : Bool) : List Byte :=
  [Cmd.unl.byte, (Cmd.mla Config.ctrlPad).byte, (Cmd.mta pad).byte] ++ msaIf sad useSad

/-- The commands of line `a3` (R200). -/
def setupBytes (pad sad : Byte) (useSad : Bool) : Direction → List Byte
  | .send => sendSetup pad sad useSad
  | .receive => receiveSetup pad sad useSad

/-- The commands a serial poll sends before it reads, line `p3` (R204). -/
def pollBytes (pad sad : Byte) (useSad : Bool) : List Byte :=
  [Cmd.unl.byte, (Cmd.mla Config.ctrlPad).byte, Cmd.spe.byte, (Cmd.mta pad).byte] ++ msaIf sad useSad

/-- `eos_bytes(eos_mode)` (R98). -/
def eosBytes (mode : BitVec 2) : List Byte :=
  if mode = 0#2 then [Config.chCr, Config.chLf]
  else if mode = 1#2 then [Config.chCr]
  else if mode = 2#2 then [Config.chLf]
  else []

/-! ### Records -/

/-- The payload bytes of a record of length `n` at ring address `o` (R62). -/
def Receiver.payloadAt (r : Receiver) (o : Byte) (n : Nat) : List Byte :=
  (List.range n).map fun i => r.memRead (o + 2#8 + BitVec.ofNat 8 i)

/-- The record at ring address `o` (R62). -/
def Receiver.recordAt (r : Receiver) (o : Byte) : Record :=
  { flag := r.memRead o, len := r.memRead (o + 1#8), payload := r.payloadAt o (r.memRead (o + 1#8)).toNat }

/-- The image `POP_RECORD` returns: `DST_SIZE` bytes, zero-filled first (R132). -/
def Record.image (x : Record) : List Byte :=
  (x.flag :: x.len :: (x.payload ++ List.replicate Config.dstSize 0x00#8)).take Config.dstSize

/-! ### Names of commands (R224) -/

/-- The decimal digits of an address field. -/
def decimal (a : Byte) : List Char := Nat.toDigits 10 a.toNat

/-- `log_entry(b)` of rule R271 for a byte `b` that decoded to `cmd`, with the spellings of rule R224. -/
def logEntry (b : Byte) : Cmd → LogEntry
  | .gtl => .named ['G', 'T', 'L']
  | .sdc => .named ['S', 'D', 'C']
  | .get => .named ['G', 'E', 'T']
  | .llo => .named ['L', 'L', 'O']
  | .dcl => .named ['D', 'C', 'L']
  | .spe => .named ['S', 'P', 'E']
  | .spd => .named ['S', 'P', 'D']
  | .mla a => .named (['M', 'L', 'A', ' '] ++ decimal a)
  | .unl => .named ['U', 'N', 'L']
  | .mta a => .named (['M', 'T', 'A', ' '] ++ decimal a)
  | .unt => .named ['U', 'N', 'T']
  | .msa s => .named (['M', 'S', 'A', ' '] ++ decimal s)
  | .other _ => .raw b

/-! ### Configuration fields (R51) -/

/-- The name `persist_request` carries for a `SET_CONFIG` (R51). -/
def configField : ConfigWrite → FieldName
  | .myPad _ => .myPad
  | .mySad _ => .mySad
  | .sadValid _ => .sadValid
  | .timeoutMs _ => .timeoutMs
  | .eoiUse _ => .eoiUse
  | .eosMode _ => .eosMode
  | .eotEnable _ => .eotEnable
  | .eotChar _ => .eotChar
  | .autoRead _ => .autoRead

/-- The one field a `SET_CONFIG` writes (R51). -/
def ConfigRegs.write (c : ConfigRegs) : ConfigWrite → ConfigRegs
  | .myPad v => { c with myPad := v }
  | .mySad v => { c with mySad := v }
  | .sadValid v => { c with sadValid := v }
  | .timeoutMs v => { c with timeoutMs := v }
  | .eoiUse v => { c with eoiUse := v }
  | .eosMode v => { c with eosMode := v.setWidth 2 }
  | .eotEnable v => { c with eotEnable := v }
  | .eotChar v => { c with eotChar := v }
  | .autoRead v => { c with autoRead := v }

end Sys2Proof.Machine
end

