-- ==== Sys2Proof/Machine/Flags.lean ====
section
/-!
DEFINITION. The conditions the rules test: ring occupancy and its two bounds (R63, R125, R127), the condition of a `WAIT`
(R150), the contention check (R156), the address and range checks (R201, R51, R344, R7), and the role checks (R310).
-/

namespace Sys2Proof.Machine

/-! ### The ring -/

/-- `used = (head - rd) mod 256` (R63). -/
def Receiver.used (r : Receiver) : Nat := (r.head - r.rd).toNat

/-- One more payload byte would collide (R125). -/
def Receiver.collides (r : Receiver) : Bool := decide (r.used + 2 + r.len.toNat + 1 > Config.maxUsed)

/-- The in-progress record fits with its header (R127). -/
def Receiver.fits (r : Receiver) : Bool := decide (r.used + 2 + r.len.toNat ≤ Config.maxUsed)

/-- `rd = head`: the buffer is empty (R24, R63). -/
def Receiver.isEmpty (r : Receiver) : Bool := decide (r.rd = r.head)

/-! ### Handshake -/

/-- The condition of a `WAIT` in one sample of the bus (R150, R155, R160). -/
def WaitCond.holds (c : WaitCond) (bus : Drives) : Bool :=
  match c with
  | .nrfdReleased => !bus.nrfd
  | .ndacReleased => !bus.ndac
  | .davAsserted => bus.dav
  | .davReleased => !bus.dav

/-- Line `w4`: `tmo_cnt > timeout_ms` (R150). -/
def State.bounded (s : State) : Bool := decide (s.hs.tmoCnt.toNat > s.cfg.timeoutMs.toNat)

/-- Line `s2`: NRFD and NDAC asserted in the same sample (R156). -/
def State.contention (s : State) : Bool := s.bus.nrfd && s.bus.ndac

/-! ### Ranges -/

/-- PAD in [1,30] and, if used, SAD in [0,30] (R201). -/
def addressOk (pad sad : Byte) (useSad : Bool) : Bool :=
  decide (Config.padMin ≤ pad.toNat) && decide (pad.toNat ≤ Config.padMax) &&
    (!useSad || decide (sad.toNat ≤ Config.sadMax))

/-- A `SET_CONFIG` value is in its field's legal range (R51, D47). -/
def configInRange : ConfigWrite → Bool
  | .myPad v => decide (Config.padMin ≤ v.toNat) && decide (v.toNat ≤ Config.padMax)
  | .mySad v => decide (v.toNat ≤ Config.sadMax)
  | .timeoutMs v => decide (v.toNat ≤ Config.timeoutMax)
  | .eosMode v => decide (v.toNat ≤ Config.eosMax)
  | .sadValid _ => true
  | .eoiUse _ => true
  | .eotEnable _ => true
  | .eotChar _ => true
  | .autoRead _ => true

/-- `CFG_INIT` lies within the ranges (R344); a store that holds no timeout gives the default, which does. -/
def Store.inRange (c : Store) : Bool :=
  decide ((c.timeoutMs.getD Config.timeoutDefault).toNat ≤ Config.timeoutMax) &&
    decide (Config.padMin ≤ c.myPad.toNat) && decide (c.myPad.toNat ≤ Config.padMax) &&
    decide (c.mySad.toNat ≤ Config.sadMax) && decide (c.eosMode.toNat ≤ Config.eosMax)

/-- `RX_BURST_MAX` is at least 1 (R7, U4). -/
def Params.inRange (p : Params) : Bool := decide (1 ≤ p.rxBurstMax)

/-! ### Roles (R310) -/

/-- `role = Controller`. -/
def State.isController (s : State) : Bool := decide (s.cfg.role = .controller)

/-- `role = Device`. -/
def State.isDevice (s : State) : Bool := decide (s.cfg.role = .device)

/-- The checks of `ADDRESSING_SETUP` and `READ_STATUS_BYTE` before any command, in the order of rule R303: role, then
address. -/
def State.setupError (s : State) (pad sad : Byte) (useSad : Bool) : Option ErrKind :=
  if !s.isController then some .roleViolation
  else if !addressOk pad sad useSad then some .invalidAddress
  else none

end Sys2Proof.Machine
end

