-- ==== Sys2Proof/Machine/Handshake.lean ====
section
/-!
DEFINITION. The byte-level handshake engine (41_handshake.md): `WAIT`, `SEND_BYTE` and `RECEIVE_BYTE`, one definition per
operation, one case per line of its pseudocode, one atomic step per line (R10, R21).  `rest` is the stack of the callers.
-/

namespace Sys2Proof.Machine

/-- One line of `WAIT(cond)` (R150). -/
def waitLine (c : WaitCond) (l : WaitLine) (rest : List Frame) (s : State) : State :=
  match l with
  | .w1 => { s with hs.tmoCnt := 0#16 }.goto (.wait c .w2 :: rest)
  | .w2 => { s with hs.tickEn := true }.goto (.wait c .w3 :: rest)
  | .w3 =>
    if c.holds s.bus then { s with hs.tickEn := false }.finish .met rest else s.goto (.wait c .w4 :: rest)
  | .w4 =>
    if s.bounded then { s with hs.tickEn := false }.finish .timedOut rest else s.goto (.wait c .w3 :: rest)

/-- The next line of an operation and, above it, the `WAIT` that the line calls. -/
def State.callWait (s : State) (c : WaitCond) (frames : List Frame) : State := s.goto (.wait c .w1 :: frames)

/-- One line of `SEND_BYTE(value, assert_eoi)` (R155 to R159). -/
def sendByteLine (value : Byte) (assertEoi : Bool) (l : SendByteLine) (rest : List Frame) (s : State) : State :=
  match l with
  | .s1 => s.talkConfig.goto (.sendByte value assertEoi .s2 :: rest)
  | .s2 =>
    if s.contention then s.raise .busContention rest else s.goto (.sendByte value assertEoi .s3 :: rest)
  | .s3 =>
    { s with drv.dio := value }.callWait .nrfdReleased (.sendByte value assertEoi .s4 :: rest)
  | .s4 =>
    if s.ret = .timedOut then { s with drv.dio := 0x00#8 }.raise .handshakeTimeout rest
    else s.goto (.sendByte value assertEoi .s5 :: rest)
  | .s5 => { s with drv.eoi := if assertEoi then true else s.drv.eoi }.goto (.sendByte value assertEoi .s6 :: rest)
  | .s6 =>
    { s with drv.dav := true }.callWait .ndacReleased (.sendByte value assertEoi .s7 :: rest)
  | .s7 =>
    if s.ret = .timedOut then s.releaseTalker.raise .handshakeTimeout rest
    else s.goto (.sendByte value assertEoi .s8 :: rest)
  | .s8 => { s with drv.dav := false }.goto (.sendByte value assertEoi .s9 :: rest)
  | .s9 => { s with drv.eoi := false, drv.dio := 0x00#8 }.finish .ok rest

/-- One line of `RECEIVE_BYTE()` (R160 to R166). -/
def receiveByteLine (l : ReceiveByteLine) (rest : List Frame) (s : State) : State :=
  match l with
  | .r1 => s.listenConfig.goto (.receiveByte .r2 :: rest)
  | .r2 => { s with drv.ndac := true }.goto (.receiveByte .r3 :: rest)
  | .r3 => { s with drv.nrfd := false }.callWait .davAsserted (.receiveByte .r4 :: rest)
  | .r4 =>
    if s.ret = .timedOut then { s with drv.nrfd := true }.raise .handshakeTimeout rest
    else s.goto (.receiveByte .r5 :: rest)
  | .r5 =>
    { s with hs.latData := s.bus.dio, hs.latEoi := s.bus.eoi }.goto (.receiveByte .r6 :: rest)
  | .r6 => { s with drv.nrfd := true }.goto (.receiveByte .r7 :: rest)
  | .r7 => { s with drv.ndac := false }.callWait .davReleased (.receiveByte .r8 :: rest)
  | .r8 =>
    if s.ret = .timedOut then { s with drv.ndac := true }.raise .handshakeTimeout rest
    else s.goto (.receiveByte .r9 :: rest)
  | .r9 => { s with drv.ndac := true }.goto (.receiveByte .r10 :: rest)
  | .r10 => { s with drv.nrfd := false }.finish (.okByteEoi s.hs.latData s.hs.latEoi) rest

/-! ### Meanings: the request is taken, and its first line runs -/

/-- `SEND_BYTE` (R155). -/
def execSendByte (value : Byte) (assertEoi : Bool) (s : State) : Host.Outcome State Fault Refusal :=
  s.accept (sendByteLine value assertEoi .s1 [] s)

/-- `RECEIVE_BYTE` (R160). -/
def execReceiveByte (s : State) : Host.Outcome State Fault Refusal := s.accept (receiveByteLine .r1 [] s)

end Sys2Proof.Machine
end

