-- ==== Sys2Proof/Machine/Transport.lean ====
section
/-!
DEFINITION. The message-level transport (42_transport.md): `SEND_COMMAND`, `SEND_DATA` and `RECEIVE_MESSAGE`.  A line that
holds no primitive of rule R10 (a role check, building a sequence, testing a result) runs in one step with the line it
leads to, so a function named `enter…` runs an operation's first lines up to its first call (log entry 7).
-/

namespace Sys2Proof.Machine

/-- One line of `SEND_COMMAND(byte)` (R180, R181). -/
def sendCommandLine (b : Byte) (l : SendCommandLine) (rest : List Frame) (s : State) : State :=
  match l with
  | .c1 =>
    if s.isController then
      { s with drv.atn := true }.goto (.sendByte b false .s1 :: .sendCommand b .c3 :: rest)
    else s.raise .roleViolation rest
  | .c3 => s.goto (.sendCommand b .c4 :: rest)
  | .c4 => { s with drv.atn := false }.finish s.ret rest

/-- The head of line `d2`'s loop, and line `d3` (R182): EOI goes with the last byte only (R184). -/
def sendDataLoop (todo : List Byte) (useEoi : Bool) (rest : List Frame) (s : State) : State :=
  match todo with
  | [] => s.finish .ok rest
  | b :: bs => s.goto (.sendByte b (useEoi && bs.isEmpty) .s1 :: .sendData bs useEoi :: rest)

/-- `SEND_DATA(buffer, use_eoi)` up to its first call: line `d1` (R182, R183). -/
def enterSendData (buffer : List Byte) (useEoi : Bool) (rest : List Frame) (s : State) : State :=
  sendDataLoop (buffer ++ eosBytes s.cfg.eosMode) useEoi rest s

/-- Line `d2` after a `SEND_BYTE` (R182): its first error ends the operation. -/
def sendDataLine (todo : List Byte) (useEoi : Bool) (rest : List Frame) (s : State) : State :=
  match s.ret with
  | .err e => s.raise e rest
  | _ => sendDataLoop todo useEoi rest s

/-- `RECEIVE_MESSAGE(mode, stop_char)` up to its first call (R185). -/
def enterReceiveMessage (mode : RecvMode) (stop : Byte) (rest : List Frame) (s : State) : State :=
  s.goto (.receiveByte .r1 :: .receiveMessage mode stop .m1 :: rest)

/-- Where line `m2` goes on after byte `b` with EOI state `eoi`: `some reason` ends the message (R185). -/
def messageEnd (mode : RecvMode) (stop b : Byte) (eoi : Bool) : Option EndReason :=
  match mode with
  | .untilEoi => if eoi then some .eoi else none
  | .untilChar => if b = stop then some .stopChar else none
  | .untilTimeout => none

/-- Line `m2` with the byte received (R185, R186). -/
def forwardByte (mode : RecvMode) (stop b : Byte) (eoi : Bool) (rest : List Frame) (s : State) : State :=
  match messageEnd mode stop b eoi with
  | some reason => (s.emitLink b).goto (.receiveMessage mode stop (.m3 reason) :: rest)
  | none => (s.emitLink b).goto (.receiveByte .r1 :: .receiveMessage mode stop .m1 :: rest)

/-- One line of `RECEIVE_MESSAGE` (R185, R187).  `RECEIVE_BYTE` returns a byte or an error, and any error ends the
message with reason `Timeout`. -/
def receiveMessageLine (mode : RecvMode) (stop : Byte) (l : ReceiveMessageLine) (rest : List Frame) (s : State) :
    State :=
  match l with
  | .m1 =>
    match s.ret with
    | .okByteEoi b eoi => s.goto (.receiveMessage mode stop (.m2 b eoi) :: rest)
    | _ => s.goto (.receiveMessage mode stop (.m3 .timeout) :: rest)
  | .m2 b eoi => forwardByte mode stop b eoi rest s
  | .m3 reason =>
    if s.cfg.eotEnable then (s.emitLink s.cfg.eotChar).finish (.ended reason) rest
    else s.finish (.ended reason) rest

/-! ### Meanings -/

/-- `SEND_COMMAND` (R180). -/
def execSendCommand (b : Byte) (s : State) : Host.Outcome State Fault Refusal :=
  s.accept (sendCommandLine b .c1 [] s)

/-- `SEND_DATA` (R182). -/
def execSendData (buffer : List Byte) (useEoi : Bool) (s : State) : Host.Outcome State Fault Refusal :=
  s.accept (enterSendData buffer useEoi [] s)

/-- `RECEIVE_MESSAGE` (R185). -/
def execReceiveMessage (mode : RecvMode) (stop : Byte) (s : State) : Host.Outcome State Fault Refusal :=
  s.accept (enterReceiveMessage mode stop [] s)

end Sys2Proof.Machine
end

