-- ==== Sys2Proof/Machine/Controller.lean ====
section
/-!
DEFINITION. The controller bus operations (43_controller_ops.md): `ADDRESSING_SETUP`, `READ_STATUS_BYTE`, `SEND_IFC` and
`SEND_GROUP_TRIGGER`.  Role and address checks touch no line and run in one step with the first call (log entry 7).
-/

namespace Sys2Proof.Machine

/-! ### Addressing setup -/

/-- Line `a4`'s loop over the commands, and line `a5` (R200). -/
def addressingLoop (todo : List Byte) (rest : List Frame) (s : State) : State :=
  match todo with
  | [] => s.finish .ok rest
  | b :: bs => s.goto (.sendCommand b .c1 :: .addressingSetup bs :: rest)

/-- `ADDRESSING_SETUP` up to its first call: lines `a1` to `a3` (R200, R201). -/
def enterAddressingSetup (pad sad : Byte) (useSad : Bool) (dir : Direction) (rest : List Frame) (s : State) : State :=
  match s.setupError pad sad useSad with
  | some e => s.raise e rest
  | none => addressingLoop (setupBytes pad sad useSad dir) rest s

/-- Line `a4` after a `SEND_COMMAND` (R200, R302). -/
def addressingSetupLine (todo : List Byte) (rest : List Frame) (s : State) : State :=
  match s.ret with
  | .err e => s.raise e rest
  | _ => addressingLoop todo rest s

/-! ### Serial poll -/

/-- The head of line `p3`'s loop; after the last command, line `p4` calls `RECEIVE_BYTE` (R204). -/
def readStatusLoop (pad sad : Byte) (useSad : Bool) (todo : List Byte) (rest : List Frame) (s : State) : State :=
  match todo with
  | [] => s.goto (.receiveByte .r1 :: .readStatusByte pad sad useSad .p4 :: rest)
  | b :: bs => s.goto (.sendCommand b .c1 :: .readStatusByte pad sad useSad (.p3 bs) :: rest)

/-- `READ_STATUS_BYTE` up to its first call: lines `p1` to `p3` (R204, R205). -/
def enterReadStatusByte (pad sad : Byte) (useSad : Bool) (rest : List Frame) (s : State) : State :=
  match s.setupError pad sad useSad with
  | some e => s.raise e rest
  | none => readStatusLoop pad sad useSad (pollBytes pad sad useSad) rest s

/-- Lines `p5` and `p6` send `SPD` and `UNT` (R204). -/
def readStatusSend (pad sad : Byte) (useSad : Bool) (b : Byte) (l : ReadStatusLine) (rest : List Frame) (s : State) :
    State :=
  s.goto (.sendCommand b .c1 :: .readStatusByte pad sad useSad l :: rest)

/-- One line of `READ_STATUS_BYTE` after its call has returned (R204): the first error ends it. -/
def readStatusByteLine (pad sad : Byte) (useSad : Bool) (l : ReadStatusLine) (rest : List Frame) (s : State) : State :=
  match s.ret with
  | .err e => s.raise e rest
  | r =>
    match l with
    | .p3 todo => readStatusLoop pad sad useSad todo rest s
    | .p4 =>
      match r with
      | .okByteEoi sb _ => readStatusSend pad sad useSad Cmd.spd.byte (.p5 sb) rest s
      | _ => s.raise .handshakeTimeout rest
    | .p5 sb => readStatusSend pad sad useSad Cmd.unt.byte (.p6 sb) rest s
    | .p6 sb => s.finish (.okByte sb) rest

/-! ### Interface clear -/

/-- One line of `SEND_IFC` (R208); `i3`, the fixed delay, is one step in a model without time (R209). -/
def sendIfcLine (l : SendIfcLine) (rest : List Frame) (s : State) : State :=
  match l with
  | .i1 =>
    if s.isController then { s with drv.ifc := true }.goto (.sendIfc .i3 :: rest) else s.raise .roleViolation rest
  | .i3 => s.goto (.sendIfc .i4 :: rest)
  | .i4 => { s with drv.ifc := false }.finish .ok rest

/-! ### Group execute trigger -/

/-- The first error recorded so far, or `e` (R210). -/
def firstError (first : Option ErrKind) (e : ErrKind) : Option ErrKind :=
  match first with
  | some f => some f
  | none => some e

/-- Line `g3` (R210). -/
def groupResult (first : Option ErrKind) : Ret :=
  match first with
  | none => .ok
  | some e => .err e

/-- The head of line `g2`'s loop: an entry whose checks fail is recorded and left, and the first entry that passes them
is addressed (R210, R211); then line `g3`. -/
def groupTriggerLoop (todo : List Target) (first : Option ErrKind) (rest : List Frame) (s : State) : State :=
  match todo with
  | [] => s.finish (groupResult first) rest
  | t :: ts =>
    match s.setupError t.pad t.sad t.useSad with
    | some e => groupTriggerLoop ts (firstError first e) rest s
    | none => addressingLoop (setupBytes t.pad t.sad t.useSad .send) (.groupTrigger ts first .addressing :: rest) s

/-- `SEND_GROUP_TRIGGER` up to its first call: line `g1` and the head of the loop (R210, R212). -/
def enterGroupTrigger (list : List Target) (rest : List Frame) (s : State) : State :=
  if s.isController then groupTriggerLoop list none rest s else s.raise .roleViolation rest

/-- Line `g2` after a call has returned: after the addressing the trigger is sent, after the trigger the next entry is
taken, and an error ends the entry (R210). -/
def groupTriggerLine (todo : List Target) (first : Option ErrKind) (l : GroupTriggerLine) (rest : List Frame)
    (s : State) : State :=
  match s.ret with
  | .err e => groupTriggerLoop todo (firstError first e) rest s
  | _ =>
    match l with
    | .addressing => s.goto (.sendCommand Cmd.get.byte .c1 :: .groupTrigger todo first .trigger :: rest)
    | .trigger => groupTriggerLoop todo first rest s

/-! ### Meanings -/

/-- `ADDRESSING_SETUP` (R200). -/
def execAddressingSetup (pad sad : Byte) (useSad : Bool) (dir : Direction) (s : State) :
    Host.Outcome State Fault Refusal :=
  s.accept (enterAddressingSetup pad sad useSad dir [] s)

/-- `READ_STATUS_BYTE` (R204). -/
def execReadStatusByte (pad sad : Byte) (useSad : Bool) (s : State) : Host.Outcome State Fault Refusal :=
  s.accept (enterReadStatusByte pad sad useSad [] s)

/-- `SEND_IFC` (R208). -/
def execSendIfc (s : State) : Host.Outcome State Fault Refusal := s.accept (sendIfcLine .i1 [] s)

/-- `SEND_GROUP_TRIGGER` (R210). -/
def execSendGroupTrigger (list : List Target) (s : State) : Host.Outcome State Fault Refusal :=
  s.accept (enterGroupTrigger list [] s)

end Sys2Proof.Machine
end

