-- ==== Sys2Proof/Machine/DeviceMode.lean ====
section
/-!
DEFINITION. Device mode (45_device_fsm.md): the transitions on decoded command bytes, one definition per command, the
device cycle, and the mode and status requests.
-/

namespace Sys2Proof.Machine

/-! ### Reset of the device state -/

/-- One line of `dev_clear()` (R245) and of `ifc_reset()` (R251).  It is part of a device cycle and returns nothing. -/
def devClearLine (l : DevClearLine) (rest : List Frame) (s : State) : State :=
  match l with
  | .e1 =>
    { s with dev.listening := false, dev.talking := false, dev.spArmed := false }.goto (.devClear .e2 :: rest)
  | .e2 => { s with dev.status := 0x00#8 }.goto (.devClear .e3 :: rest)
  | .e3 => { s with drv.srq := false }.goto rest

/-! ### Transitions (R241) -/

/-- `MLA(a)` (R242). -/
def onMla (a : Byte) (s : State) : State :=
  if a = s.cfg.myPad then { s with dev.listening := true, dev.talking := false } else s

/-- `MTA(a)` (R243). -/
def onMta (a : Byte) (s : State) : State :=
  if a = s.cfg.myPad then { s with dev.talking := true, dev.listening := false }
  else { s with dev.talking := false }

/-- `UNL` (R244). -/
def onUnl (s : State) : State := { s with dev.listening := false }

/-- `UNT` (R244). -/
def onUnt (s : State) : State := { s with dev.talking := false }

/-- `DCL` runs `dev_clear()`, whose first line is this step (R245). -/
def onDcl (s : State) : State := devClearLine .e1 s.pc s

/-- `SDC` runs `dev_clear()` while listening (R245). -/
def onSdc (s : State) : State := if s.dev.listening then devClearLine .e1 s.pc s else s

/-- `SPE` (R246). -/
def onSpe (s : State) : State := { s with dev.spArmed := true }

/-- `SPD` (R246). -/
def onSpd (s : State) : State := { s with dev.spArmed := false }

/-- `GTL`, `GET` and `LLO`: reported while listening (R247). -/
def onHook (e : DevEvent) (s : State) : State := if s.dev.listening then s.emitDevEvent e else s

/-- `apply(cmd)` (R241); `MSA` and `Other` change nothing (R248). -/
def applyCmd (c : Cmd) (s : State) : State :=
  match c with
  | .mla a => onMla a s
  | .mta a => onMta a s
  | .unl => onUnl s
  | .unt => onUnt s
  | .dcl => onDcl s
  | .sdc => onSdc s
  | .spe => onSpe s
  | .spd => onSpd s
  | .gtl => onHook .gtl s
  | .get => onHook .get s
  | .llo => onHook .llo s
  | .msa _ => s
  | .other _ => s

/-! ### The device cycle -/

/-- Line `v2` with the result of `RECEIVE_BYTE`: a byte is decoded once and applied, a timeout changes no FSM state (R223,
R240, R241). -/
def applyReceived (s : State) : State :=
  match s.ret with
  | .okByteEoi b _ => applyCmd (decodeCommand s.par.maskDio8 b) s
  | _ => s

/-- One line of `DEVICE_CYCLE` (R240, R249, R250, R252).  What follows the `SEND_BYTE` of a poll reply does not look at its
result (R249). -/
def deviceCycleLine (l : DeviceCycleLine) (rest : List Frame) (s : State) : State :=
  match l with
  | .v1 =>
    if !s.isDevice || s.cfg.listenOnly then s.finish .done rest
    else if s.bus.ifc then s.goto (.devClear .e1 :: .deviceCycle .v5 :: rest)
    else s.goto (.deviceCycle .v2 :: rest)
  | .v2 =>
    if s.bus.atn then s.goto (.receiveByte .r1 :: .deviceCycle .v2Ret :: rest)
    else s.goto (.deviceCycle .v3 :: rest)
  | .v2Ret => applyReceived (s.goto (.deviceCycle .v5 :: rest))
  | .v3 =>
    if s.dev.talking && s.dev.spArmed then
      s.goto (.sendByte s.dev.status false .s1 :: .deviceCycle .v3Ret :: rest)
    else s.goto (.deviceCycle .v4 :: rest)
  | .v3Ret => { s with dev.status := 0x00#8 }.goto (.deviceCycle .v3Srq :: rest)
  | .v3Srq => { s with drv.srq := false }.goto (.deviceCycle .v3Disarm :: rest)
  | .v3Disarm => { s with dev.spArmed := false }.finish .done rest
  | .v4 =>
    if s.dev.listening && s.bus.dav then enterReceiveMessage .untilEoi 0x00#8 (.deviceCycle .v4Ret :: rest) s
    else s.finish .done rest
  | .v4Ret => s.finish .done rest
  | .v5 => s.finish .done rest

/-! ### Mode and status requests -/

/-- The first line of `SET_ROLE(new)` (R255). -/
def enterSetRole (new : Role) (rest : List Frame) (s : State) : State :=
  { s with cfg.role := new }.goto (.setRole new .t2 :: rest)

/-- One line of `SET_ROLE(new)` after its first (R255). -/
def setRoleLine (new : Role) (l : SetRoleLine) (rest : List Frame) (s : State) : State :=
  match l with
  | .t2 => { s with dev := Device.cleared }.goto (.setRole new .t3 :: rest)
  | .t3 => { s with drv.atn := false, drv.ifc := false, drv.srq := false }.goto (.setRole new .t4 :: rest)
  | .t4 => s.releaseTalker.goto (.setRole new .t5 :: rest)
  | .t5 =>
    match new with
    | .controller => { s.talkConfig with drv.ren := true }.goto (.setRole new .t6 :: rest)
    | .device => { s.holdAcceptor with hs.xcvr := .listen, drv.ren := false }.goto (.setRole new .t6 :: rest)
  | .t6 => (s.emitPersist .role).finish .ok rest

/-- The first line of `SET_LISTEN_ONLY(on)` (R257). -/
def enterSetListenOnly (on : Bool) (rest : List Frame) (s : State) : State :=
  { s with cfg.listenOnly := on }.goto (.setListenOnly on .n2 :: rest)

/-- One line of `SET_LISTEN_ONLY(on)` after its first (R257); in Controller role the lines `n3` and `n4` are skipped. -/
def setListenOnlyLine (on : Bool) (l : SetListenOnlyLine) (rest : List Frame) (s : State) : State :=
  match l with
  | .n2 =>
    { s with dev := Device.cleared, drv.srq := false }.goto
      (.setListenOnly on (if s.isDevice then .n3 else .n5) :: rest)
  | .n3 => s.listenConfig.goto (.setListenOnly on .n4 :: rest)
  | .n4 => s.holdAcceptor.goto (.setListenOnly on .n5 :: rest)
  | .n5 => (s.emitPersist .listenOnly).finish .ok rest

/-- `SET_SRQ(on)` (R258). -/
def changeSrq (on : Bool) (s : State) : State :=
  if s.isDevice then { s with drv.srq := on }.finish .ok [] else s.raise .roleViolation []

/-- `SET_CONFIG(field, value)` (R51). -/
def changeConfig (w : ConfigWrite) (s : State) : State :=
  if configInRange w then ({ s with cfg := s.cfg.write w }.emitPersist (configField w)).finish .ok []
  else s.raise .invalidConfig []

/-! ### Meanings -/

/-- `DEVICE_CYCLE` (R240). -/
def execDeviceCycle (s : State) : Host.Outcome State Fault Refusal := s.accept (deviceCycleLine .v1 [] s)

/-- `SET_ROLE` (R255). -/
def execSetRole (new : Role) (s : State) : Host.Outcome State Fault Refusal := s.accept (enterSetRole new [] s)

/-- `SET_LISTEN_ONLY` (R257). -/
def execSetListenOnly (on : Bool) (s : State) : Host.Outcome State Fault Refusal :=
  s.accept (enterSetListenOnly on [] s)

/-- `SET_STATUS` (R256). -/
def execSetStatus (v : Byte) (s : State) : Host.Outcome State Fault Refusal :=
  s.accept ({ s with dev.status := v }.finish .ok [])

/-- `SET_SRQ` (R258). -/
def execSetSrq (on : Bool) (s : State) : Host.Outcome State Fault Refusal := s.accept (changeSrq on s)

/-- `SET_CONFIG` (R51). -/
def execSetConfig (w : ConfigWrite) (s : State) : Host.Outcome State Fault Refusal := s.accept (changeConfig w s)

/-- `GTL` (R247). -/
def execGtl (s : State) : Host.Outcome State Fault Refusal := .next (onHook .gtl s)

/-- `SDC` (R245). -/
def execSdc (s : State) : Host.Outcome State Fault Refusal := .next (onSdc s)

/-- `GET` (R247). -/
def execGet (s : State) : Host.Outcome State Fault Refusal := .next (onHook .get s)

/-- `LLO` (R247). -/
def execLlo (s : State) : Host.Outcome State Fault Refusal := .next (onHook .llo s)

/-- `DCL` (R245). -/
def execDcl (s : State) : Host.Outcome State Fault Refusal := .next (onDcl s)

/-- `SPE` (R246). -/
def execSpe (s : State) : Host.Outcome State Fault Refusal := .next (onSpe s)

/-- `SPD` (R246). -/
def execSpd (s : State) : Host.Outcome State Fault Refusal := .next (onSpd s)

/-- `UNL` (R244). -/
def execUnl (s : State) : Host.Outcome State Fault Refusal := .next (onUnl s)

/-- `MLA` (R242). -/
def execMla (a : Byte) (s : State) : Host.Outcome State Fault Refusal := .next (onMla a s)

/-- `UNT` (R244). -/
def execUnt (s : State) : Host.Outcome State Fault Refusal := .next (onUnt s)

/-- `MTA` (R243). -/
def execMta (a : Byte) (s : State) : Host.Outcome State Fault Refusal := .next (onMta a s)

/-- `MSA` changes nothing (R248). -/
def execMsa (_ : Byte) (s : State) : Host.Outcome State Fault Refusal := .next s

/-- `Other` changes nothing (R248). -/
def execOther (_ : Byte) (s : State) : Host.Outcome State Fault Refusal := .next s

end Sys2Proof.Machine
end

