-- ==== Sys2Proof/Machine/Events.lean ====
section
/-!
DEFINITION. The environment events that are no link burst (60_exceptions.md, 70_reset_and_hazards.md): `TICK`, `BUS_DRIVE`
and `RESET`, each one atomic step that may fall between any two steps of the block (R10, R304, R307), and the boot sequence.
-/

namespace Sys2Proof.Machine

/-- The 16-bit saturating count (R306). -/
def saturatingSucc (n : Word16) : Word16 := if n = 0xFFFF#16 then n else n + 1#16

/-- `TICK()` (R306): lost while `tick_en` is false (R305). -/
def onTick (s : State) : State :=
  if s.hs.tickEn then { s with hs.tmoCnt := saturatingSucc s.hs.tmoCnt } else s

/-- New drives on the lines a `BUS_DRIVE` names (R307). -/
def Drives.update (r : Drives) (d : BusDrive) : Drives :=
  { atn := d.atn.getD r.atn, dav := d.dav.getD r.dav, eoi := d.eoi.getD r.eoi, nrfd := d.nrfd.getD r.nrfd,
    ndac := d.ndac.getD r.ndac, ifc := d.ifc.getD r.ifc, srq := d.srq.getD r.srq, ren := d.ren.getD r.ren,
    dio := d.dio.getD r.dio }

/-- The ring's contents after a `RESET`: arbitrary (R22, R340; free value, log entry 1). -/
def drawnRing (draws : Nat) : List Host.Cell :=
  Memory.fill (Config.freeRingByte draws) Config.ringSize 0

/-- `RESET` (R340): whatever runs is abandoned with no restore action, the configuration registers wait for boot, the
port histories are kept, and the environment's state is its own. -/
def resetState (s : State) : State :=
  { s with rx := Receiver.reset (drawnRing s.draws), hs := Handshake.reset, drv := Drives.released,
           dev := Device.cleared, pc := [.boot .b1], ret := .done, draws := s.draws + 1 }

/-- One line of `BOOT` (R342, R343); an out-of-range `CFG_INIT` (R344) or parameter (R7) refuses the launch.  Boot emits no
`persist_request` and returns no result. -/
def bootLine (l : BootLine) (s : State) : Host.Outcome State Fault Refusal :=
  match l with
  | .b1 =>
    if s.store.inRange && s.par.inRange then .next ({ s with cfg := s.store.regs }.goto [.boot .b2])
    else .refused .launchRefused
  | .b2 => .next ((s.idleDrives s.cfg.role).goto [.boot .b4])
  | .b4 => .next ({ s with rx.enabled := true }.goto [.boot .b5])
  | .b5 => .next (s.goto [])

/-! ### Meanings -/

/-- `TICK` (R306). -/
def execTick (s : State) : Host.Outcome State Fault Refusal := .next (onTick s)

/-- `BUS_DRIVE` (R307). -/
def execBusDrive (d : BusDrive) (s : State) : Host.Outcome State Fault Refusal :=
  .next { s with rem := s.rem.update d }

/-- `RESET` (R340). -/
def execReset (s : State) : Host.Outcome State Fault Refusal := .next (resetState s)

end Sys2Proof.Machine
end

