-- ==== Sys2Proof/Machine/ListenOnly.lean ====
section
/-!
DEFINITION. Listen-only mode (46_listen_only.md).  The cycle reads no addressing state and writes none (R273), and samples
no IFC (R274).
-/

namespace Sys2Proof.Machine

/-- Line `l2` with the result of `RECEIVE_BYTE`: a byte is decoded once and logged (R223, R271). -/
def logReceived (s : State) : State :=
  match s.ret with
  | .okByteEoi b _ => s.emitLog (logEntry b (decodeCommand s.par.maskDio8 b))
  | _ => s

/-- One line of `LISTEN_ONLY_CYCLE` (R270, R272). -/
def listenOnlyLine (l : ListenOnlyLine) (rest : List Frame) (s : State) : State :=
  match l with
  | .l1 =>
    if !s.isDevice || !s.cfg.listenOnly then s.finish .done rest
    else { s with hs.xcvr := .listen }.goto (.listenOnlyCycle .l1Talker :: rest)
  | .l1Talker => s.releaseTalker.goto (.listenOnlyCycle .l1Acceptor :: rest)
  | .l1Acceptor => s.holdAcceptor.goto (.listenOnlyCycle .l2 :: rest)
  | .l2 =>
    if s.bus.atn then s.goto (.receiveByte .r1 :: .listenOnlyCycle .l2Ret :: rest)
    else s.goto (.listenOnlyCycle .l3 :: rest)
  | .l2Ret => (logReceived s).finish .done rest
  | .l3 =>
    if s.bus.dav then enterReceiveMessage .untilEoi 0x00#8 (.listenOnlyCycle .l3Ret :: rest) s
    else s.finish .done rest
  | .l3Ret => s.finish .done rest

/-- `LISTEN_ONLY_CYCLE` (R270). -/
def execListenOnlyCycle (s : State) : Host.Outcome State Fault Refusal := s.accept (listenOnlyLine .l1 [] s)

end Sys2Proof.Machine
end

