-- ==== Sys2Proof/Machine/Framing.lean ====
section
/-!
DEFINITION. The framed receiver (40_framed_receiver.md): the per-byte policy, one definition per link character class,
`RX_BURST`, and `POP_RECORD`.  The handler touches the `Receiver` group only (R120, R304).
-/

namespace Sys2Proof.Machine

/-! ### Storing and finalizing -/

/-- `MemWrite` of a record's two header bytes at `head` (R127, R128). -/
def Receiver.writeHeader (r : Receiver) (len : Byte) : Receiver :=
  (r.memWrite r.head (if r.cmd then Config.flagCommand else Config.flagData)).memWrite (r.head + 1#8) len

/-- `force_flush()` (R128): the 253 bytes become a record, and the continuation inherits the flag. -/
def Receiver.forceFlush (r : Receiver) : Receiver :=
  { r.writeHeader 253#8 with head := r.head + 255#8, len := 0#8 }

/-- Dropping the in-progress record on a collision (R125). -/
def Receiver.dropRecord (r : Receiver) : Receiver :=
  { r with len := 0#8, cmd := false, esc := false, mode := .discard }

/-- The payload byte itself, after the collision check has passed (R125). -/
def Receiver.append (r : Receiver) (c : Byte) : Receiver :=
  { r.memWrite (r.head + 2#8 + r.len) c with len := r.len + 1#8 }

/-- The collision check and the write of `store(c)` (R125). -/
def Receiver.storeChecked (r : Receiver) (c : Byte) : Receiver :=
  if r.collides then r.dropRecord else r.append c

/-- `store(c)` (R125). -/
def Receiver.store (r : Receiver) (c : Byte) : Receiver :=
  if r.len.toNat = Config.maxPayload then r.forceFlush.storeChecked c else r.storeChecked c

/-- Publishing the in-progress record: its header, then `head` (R127). -/
def Receiver.publish (r : Receiver) : Receiver :=
  { r.writeHeader r.len with head := r.head + 2#8 + r.len }

/-- The receive state at the start of a line (R127). -/
def Receiver.startLine (r : Receiver) : Receiver :=
  { r with len := 0#8, cmd := false, esc := false, lead := .start }

/-- `finalize()` (R127). -/
def Receiver.finalize (r : Receiver) : Receiver :=
  if r.fits then r.publish.startLine else r.startLine

/-! ### The link character classes -/

/-- `on_esc()` (R122). -/
def Receiver.onEsc (r : Receiver) : Receiver := { r with lead := .body, esc := true }

/-- `leading_pair()` (R124): the pair is stored, and the record is a command record unless a store collided. -/
def Receiver.leadingPair (r : Receiver) : Receiver :=
  let r1 := Receiver.store { r with lead := .body } Config.chPlus
  let r2 := if r1.mode = .normal then r1.store Config.chPlus else r1
  if r2.mode = .normal then { r2 with cmd := true } else r2

/-- `on_plus()` (R123). -/
def Receiver.onPlus (r : Receiver) : Receiver :=
  match r.lead with
  | .start => { r with lead := .onePlus }
  | .onePlus => r.leadingPair
  | .body => r

/-- A literal byte (R131). -/
def Receiver.onLiteral (r : Receiver) (c : Byte) : Receiver := Receiver.store { r with lead := .body } c

/-- An escaped byte (R126). -/
def Receiver.onEscaped (r : Receiver) (c : Byte) : Receiver := Receiver.store { r with esc := false } c

/-- `c` is a CR or an LF. -/
def isTerminator (c : Byte) : Bool := c == Config.chCr || c == Config.chLf

/-- `discard_byte(c)` (R129). -/
def Receiver.onDiscard (r : Receiver) (c : Byte) : Receiver :=
  if r.esc then { r with esc := false }
  else if c = Config.chEsc then { r with esc := true }
  else if isTerminator c then { r with mode := .normal, len := 0#8, cmd := false, lead := .start }
  else r

/-- The state a byte of class `k` leaves (R121). -/
def Receiver.take (r : Receiver) : LinkClass → Receiver
  | .esc => r.onEsc
  | .plus => r.onPlus
  | .leadingPlusPair => r.leadingPair
  | .cr => r.finalize
  | .lf => r.finalize
  | .lit c => r.onLiteral c
  | .escaped c => r.onEscaped c
  | .discard c => r.onDiscard c

/-- Whether a byte of class `k` returns `Terminated`, which drains the rest of its burst (R120, R130). -/
def Receiver.terminates (r : Receiver) : LinkClass → Bool
  | .cr => true
  | .lf => true
  | .discard c => !r.esc && isTerminator c
  | .esc => false
  | .plus => false
  | .leadingPlusPair => false
  | .lit _ => false
  | .escaped _ => false

/-- The class of a link byte in the receiver's context (R95, R121). -/
def Receiver.classOf (r : Receiver) (c : Byte) : LinkClass := classify r.mode r.esc r.lead c

/-- `rx_byte(c)` (R121). -/
def Receiver.rxByte (r : Receiver) (c : Byte) : Receiver := r.take (r.classOf c)

/-- `RX_BURST(bytes)` (R120): one byte after the other, up to the one that terminates a line. -/
def Receiver.burst : Receiver → List Byte → Receiver
  | r, [] => r
  | r, c :: cs => if r.terminates (r.classOf c) then r.rxByte c else Receiver.burst (r.rxByte c) cs

/-! ### Popping -/

/-- What `POP_RECORD` copies out, `none` on an empty buffer (R132). -/
def Receiver.oldest (r : Receiver) : Option Record := if r.isEmpty then none else some (r.recordAt r.rd)

/-- The receiver after `POP_RECORD`: the read cursor past the record (R132). -/
def Receiver.popped (r : Receiver) : Receiver :=
  match r.oldest with
  | none => r
  | some x => { r with rd := r.rd + 2#8 + x.len }

/-- The result of `POP_RECORD` (R132). -/
def popResult : Option Record → Ret
  | none => .noRecord
  | some x => .record x.image

/-! ### Meanings -/

/-- `RX_BURST` (R120, R308): one atomic step.  A burst longer than `RX_BURST_MAX` is no burst of this platform (R103). -/
def execRxBurst (bytes : List Byte) (s : State) : Host.Outcome State Fault Refusal :=
  if bytes.length ≤ s.par.rxBurstMax then .next { s with rx := s.rx.burst bytes } else .refused .burstTooLong

/-- `POP_RECORD` (R132), one atomic step (R73). -/
def execPopRecord (s : State) : Host.Outcome State Fault Refusal :=
  s.accept ({ s with rx := s.rx.popped }.finish (popResult s.rx.oldest) [])

/-- `ESC` (R122). -/
def execEsc (s : State) : Host.Outcome State Fault Refusal := .next { s with rx := s.rx.onEsc }

/-- `PLUS` (R123). -/
def execPlus (s : State) : Host.Outcome State Fault Refusal := .next { s with rx := s.rx.onPlus }

/-- `LEADING_PLUS_PAIR` (R124). -/
def execLeadingPlusPair (s : State) : Host.Outcome State Fault Refusal :=
  .next { s with rx := s.rx.leadingPair }

/-- `CR` (R127). -/
def execCr (s : State) : Host.Outcome State Fault Refusal := .next { s with rx := s.rx.finalize }

/-- `LF` (R127). -/
def execLf (s : State) : Host.Outcome State Fault Refusal := .next { s with rx := s.rx.finalize }

/-- `LIT` (R131). -/
def execLit (c : Byte) (s : State) : Host.Outcome State Fault Refusal :=
  .next { s with rx := s.rx.onLiteral c }

/-- `ESCAPED` (R126). -/
def execEscaped (c : Byte) (s : State) : Host.Outcome State Fault Refusal :=
  .next { s with rx := s.rx.onEscaped c }

/-- `DISCARD` (R129). -/
def execDiscard (c : Byte) (s : State) : Host.Outcome State Fault Refusal :=
  .next { s with rx := s.rx.onDiscard c }

end Sys2Proof.Machine
end

