-- ==== Sys2Proof/Machine/MainCycle.lean ====
section
/-!
DEFINITION. The main cycle and record dispatch (47_main_cycle.md).
-/

namespace Sys2Proof.Machine

/-- The loop over the bytes of a data record in Device role: directly through the byte engine, no EOS, EOI with the last
byte when `eoi_use` (R283).  After it, line `k3`. -/
def deviceRecordLoop (todo : List Byte) (rest : List Frame) (s : State) : State :=
  match todo with
  | [] => s.goto (.mainCycle .k3 :: rest)
  | b :: bs => s.goto (.sendByte b (s.cfg.eoiUse && bs.isEmpty) .s1 :: .mainCycle (.k2Byte bs) :: rest)

/-- `data_record(payload)` (R282, R283). -/
def dataRecord (payload : List Byte) (rest : List Frame) (s : State) : State :=
  if s.isController then enterSendData payload s.cfg.eoiUse (.mainCycle .k2Ret :: rest) s
  else if s.dev.talking && !s.cfg.listenOnly then deviceRecordLoop payload rest s
  else s.goto (.mainCycle .k3 :: rest)

/-- Line `k2` (R280): a command record is handed whole to the dispatcher (R281). -/
def routeRecord (popped : Option Record) (rest : List Frame) (s : State) : State :=
  match popped with
  | none => s.goto (.mainCycle .k3 :: rest)
  | some x =>
    if x.flag = Config.flagCommand then (s.emitDispatch x.flag x.payload).goto (.mainCycle .k3 :: rest)
    else dataRecord x.payload rest s

/-- Line `k2` after a `SEND_BYTE` of rule R283: the first error stops the record. -/
def deviceRecordLine (todo : List Byte) (rest : List Frame) (s : State) : State :=
  match s.ret with
  | .err _ => s.goto (.mainCycle .k3 :: rest)
  | _ => deviceRecordLoop todo rest s

/-- Line `k3` (R284). -/
def busProcessing (rest : List Frame) (s : State) : State :=
  if s.isDevice then
    if s.cfg.listenOnly then s.goto (.listenOnlyCycle .l1 :: .mainCycle .k3Ret :: rest)
    else s.goto (.deviceCycle .v1 :: .mainCycle .k3Ret :: rest)
  else s.finish .done rest

/-- One line of `MAIN_CYCLE` (R280); the results of the operations it calls are dropped (R288). -/
def mainCycleLine (l : MainCycleLine) (rest : List Frame) (s : State) : State :=
  match l with
  | .k1 => { s with rx := s.rx.popped }.goto (.mainCycle (.k2 s.rx.oldest) :: rest)
  | .k2 popped => routeRecord popped rest s
  | .k2Ret => s.goto (.mainCycle .k3 :: rest)
  | .k2Byte todo => deviceRecordLine todo rest s
  | .k3 => busProcessing rest s
  | .k3Ret => s.finish .done rest

/-- `MAIN_CYCLE` (R280). -/
def execMainCycle (s : State) : Host.Outcome State Fault Refusal := s.accept (mainCycleLine .k1 [] s)

end Sys2Proof.Machine
end

