-- ==== Sys2Proof/Machine/Sequencer.lean ====
section
/-!
DEFINITION. One step of the main-loop agent inside an operation: the line the sequencer position names (R21).
-/

namespace Sys2Proof.Machine

/-- The line of `f`, called by the operations of `rest`. -/
def runLine (f : Frame) (rest : List Frame) (s : State) : Host.Outcome State Fault Refusal :=
  match f with
  | .boot l => bootLine l s
  | .wait c l => .next (waitLine c l rest s)
  | .sendByte v e l => .next (sendByteLine v e l rest s)
  | .receiveByte l => .next (receiveByteLine l rest s)
  | .sendCommand b l => .next (sendCommandLine b l rest s)
  | .sendData todo e => .next (sendDataLine todo e rest s)
  | .receiveMessage m c l => .next (receiveMessageLine m c l rest s)
  | .addressingSetup todo => .next (addressingSetupLine todo rest s)
  | .readStatusByte p a u l => .next (readStatusByteLine p a u l rest s)
  | .sendIfc l => .next (sendIfcLine l rest s)
  | .groupTrigger todo first l => .next (groupTriggerLine todo first l rest s)
  | .devClear l => .next (devClearLine l rest s)
  | .deviceCycle l => .next (deviceCycleLine l rest s)
  | .listenOnlyCycle l => .next (listenOnlyLine l rest s)
  | .mainCycle l => .next (mainCycleLine l rest s)
  | .setRole new l => .next (setRoleLine new l rest s)
  | .setListenOnly on l => .next (setListenOnlyLine on l rest s)

/-- One step of the main loop: inside an operation, its next line; when idle, the next `MAIN_CYCLE`, which the firmware
issues forever (R286). -/
def mainStep (s : State) : Host.Outcome State Fault Refusal :=
  match s.pc with
  | [] => execMainCycle s
  | f :: rest => runLine f rest s

end Sys2Proof.Machine
end

