-- ==== Sys2Proof/Machine/Dispatch.lean ====
section
/-! DEFINITION. `exec`: one arm per instruction. -/

namespace Sys2Proof.Machine

def exec (i : Instr) (s : State) : Host.Outcome State Fault Refusal :=
  match i with
  -- requests (R100)
  | .sendByte value assertEoi => Sys2Proof.Machine.execSendByte value assertEoi s
  | .receiveByte => Sys2Proof.Machine.execReceiveByte s
  | .sendCommand byte => Sys2Proof.Machine.execSendCommand byte s
  | .sendData buffer useEoi => Sys2Proof.Machine.execSendData buffer useEoi s
  | .receiveMessage mode stopChar => Sys2Proof.Machine.execReceiveMessage mode stopChar s
  | .addressingSetup pad sad useSad direction => Sys2Proof.Machine.execAddressingSetup pad sad useSad direction s
  | .readStatusByte pad sad useSad => Sys2Proof.Machine.execReadStatusByte pad sad useSad s
  | .sendIfc => Sys2Proof.Machine.execSendIfc s
  | .sendGroupTrigger list => Sys2Proof.Machine.execSendGroupTrigger list s
  | .popRecord => Sys2Proof.Machine.execPopRecord s
  | .deviceCycle => Sys2Proof.Machine.execDeviceCycle s
  | .listenOnlyCycle => Sys2Proof.Machine.execListenOnlyCycle s
  | .mainCycle => Sys2Proof.Machine.execMainCycle s
  | .setRole role => Sys2Proof.Machine.execSetRole role s
  | .setListenOnly on => Sys2Proof.Machine.execSetListenOnly on s
  | .setStatus value => Sys2Proof.Machine.execSetStatus value s
  | .setSrq on => Sys2Proof.Machine.execSetSrq on s
  | .setConfig write => Sys2Proof.Machine.execSetConfig write s
  -- environment events (R101)
  | .rxBurst bytes => Sys2Proof.Machine.execRxBurst bytes s
  | .tick => Sys2Proof.Machine.execTick s
  | .busDrive drive => Sys2Proof.Machine.execBusDrive drive s
  | .reset => Sys2Proof.Machine.execReset s
  -- GPIB command bytes (R91, R241)
  | .gtl => Sys2Proof.Machine.execGtl s
  | .sdc => Sys2Proof.Machine.execSdc s
  | .get => Sys2Proof.Machine.execGet s
  | .llo => Sys2Proof.Machine.execLlo s
  | .dcl => Sys2Proof.Machine.execDcl s
  | .spe => Sys2Proof.Machine.execSpe s
  | .spd => Sys2Proof.Machine.execSpd s
  | .unl => Sys2Proof.Machine.execUnl s
  | .mla a => Sys2Proof.Machine.execMla a s
  | .unt => Sys2Proof.Machine.execUnt s
  | .mta a => Sys2Proof.Machine.execMta a s
  | .msa a => Sys2Proof.Machine.execMsa a s
  | .other c => Sys2Proof.Machine.execOther c s
  -- link character classes (R95)
  | .esc => Sys2Proof.Machine.execEsc s
  | .plus => Sys2Proof.Machine.execPlus s
  | .leadingPlusPair => Sys2Proof.Machine.execLeadingPlusPair s
  | .cr => Sys2Proof.Machine.execCr s
  | .lf => Sys2Proof.Machine.execLf s
  | .lit c => Sys2Proof.Machine.execLit c s
  | .escaped c => Sys2Proof.Machine.execEscaped c s
  | .discard c => Sys2Proof.Machine.execDiscard c s

end Sys2Proof.Machine
end

