-- ==== Sys2Proof/Machine/Step.lean ====
section
/-!
DEFINITION. One step of the machine: a move of the environment, a request taken, or one step of the main loop (R10, R285,
R304).  The order of the moves is data: `inbox` is the environment's schedule, a premise of the run (log entry 8), and where
it says nothing the tick timer still does its duty (R315).
-/

namespace Sys2Proof.Machine

/-- `i` is a burst. -/
def isBurst (i : Instr) : Bool :=
  match i with
  | .rxBurst _ => true
  | _ => false

/-- Whether the block takes instruction `i` now: a request when idle (R285), a burst when link receive is enabled (R305,
R341), any other event at any step (R10, R307, R340). -/
def State.admits (s : State) (i : Instr) : Bool :=
  if isBurst i then s.rx.enabled else if i.kind = .event then true else s.pc.isEmpty

/-- A `WAIT` whose condition does not hold has polled, and its bound is not yet exceeded: it could only poll again, and the
tick timer owes a tick (R312, R315: "tick while `tick_en` is true"). -/
def State.tickDue (s : State) : Bool :=
  match s.pc with
  | .wait c .w4 :: _ => s.hs.tickEn && !c.holds s.bus && !s.bounded
  | _ => false

/-- A step that the schedule says nothing of: the tick timer does its duty (R153, R312, R315), else the main loop goes on. -/
def ownStep (s : State) : Host.Outcome State Fault Refusal := if s.tickDue then execTick s else mainStep s

/-- One step.  A message that the block cannot take yet stays at the head of the schedule.  A `pass` gives the step to the
main loop, so any finite number of polls may come before a tick; a schedule is finite, so a tick that is owed comes. -/
def step (s : State) : Host.Outcome State Fault Refusal :=
  match s.inbox with
  | [] => ownStep s
  | .pass :: q => mainStep { s with inbox := q }
  | .message bs :: q =>
    match decode .request bs with
    | .error e => .refused (.undefinedMessage e)
    | .ok i => if s.admits i then exec i { s with inbox := q } else ownStep s

/-- A message at the head of the schedule; a request needs the block idle, a burst needs link receive enabled. -/
def State.present (s : State) (i : Instr) (bs : List Byte) : State :=
  let t := { s with inbox := .message bs :: s.inbox }
  if isBurst i then { t with rx.enabled := true } else if i.kind = .event then t else { t with pc := [] }

/-- `s` with the table word presented so that the next step runs it (log entry 3): on the request and event interface; as
the byte `DEVICE_CYCLE` has just accepted under ATN; or as a one-byte burst in the receiver context of its class. -/
def State.withFetchWord (s : State) (nbits w : Nat) : State :=
  match decodeTablePort nbits w with
  | none => { s with inbox := .message (tableBytes nbits w) :: s.inbox }
  | some (.request, i) => s.present i (tableBytes nbits w)
  | some (.command m, _) =>
    { s with pc := [.deviceCycle .v2Ret], ret := .okByteEoi (BitVec.ofNat 8 w) false, par.maskDio8 := m,
             inbox := .pass :: s.inbox }
  | some (.link mode esc lead, _) =>
    { s with rx.enabled := true, rx.mode := mode, rx.esc := esc, rx.lead := lead,
             inbox := .message [0x80#8, BitVec.ofNat 8 w] :: s.inbox }

end Sys2Proof.Machine
end

