-- ==== Sys2Proof/Safety.lean ====
section
/-!
DEFINITION. What a safe run is, in the terms the statements use: runs of the machine, and the invariants the rules give.
Each predicate names the rule it states; none of them is assumed by the machine.
-/

namespace Sys2Proof.Machine

/-! ### Runs -/

/-- `k` steps of the machine lead from `s` to `t`. -/
def Runs (k : Nat) (s t : State) : Prop := Host.Core.run Sys2Proof.core k s = .next t

/-- A byte as the bus sees it when its talker asserts DAV: the data lines, EOI, and whether it is under ATN (R83, R84). -/
structure Talked where
  dio : Byte
  eoi : Bool
  atn : Bool
  deriving DecidableEq, Repr

/-- The bytes the block puts on the bus in `k` steps: one at each step at which its DAV goes from released to asserted. -/
def busTrace : (k : Nat) → State → List Talked
  | 0, _ => []
  | k + 1, s =>
    match step s with
    | .next t =>
      (if t.drv.dav && !s.drv.dav then [⟨t.drv.dio, t.drv.eoi, t.drv.atn⟩] else []) ++ busTrace k t
    | .fault _ => []
    | .refused _ => []

/-- `k` steps lead from `s` to `t`, and the block puts the bytes `tr` on the bus in them. -/
def Executes (k : Nat) (s t : State) (tr : List Talked) : Prop := Runs k s t ∧ busTrace k s = tr

/-- The bytes of a message as the bus sees them: EOI with the last byte only, and only when `useEoi` (R184). -/
def talkedMessage (useEoi atn : Bool) : List Byte → List Talked
  | [] => []
  | b :: bs => ⟨b, useEoi && bs.isEmpty, atn⟩ :: talkedMessage useEoi atn bs

/-- Command bytes as the bus sees them: under ATN, without EOI (R180, R181). -/
def talkedCommands (bs : List Byte) : List Talked := bs.map fun b => ⟨b, false, true⟩

/-! ### The environment's moves, written as schedules -/

/-- The environment leaves `n` steps to the block. -/
def passes (n : Nat) : List Item := List.replicate n .pass

/-- `n` ticks. -/
def ticks (n : Nat) : List Item := List.replicate n (.message (encode .tick))

/-- One `BUS_DRIVE`. -/
def drives (d : BusDrive) : List Item := [.message (encode (.busDrive d))]

/-- A talker puts a byte on the bus with DAV asserted (R168). -/
def talkerOn (v : Byte) (eoi : Bool) : BusDrive :=
  { BusDrive.none with dav := some true, eoi := some eoi, dio := some v }

/-- A talker releases DAV, EOI and the data lines (R168). -/
def talkerOff : BusDrive := { BusDrive.none with dav := some false, eoi := some false, dio := some 0x00#8 }

/-- A conforming talker's byte (R168), from line `r1` of `RECEIVE_BYTE` on: the block reaches the poll of `r4`, the talker
asserts DAV, the block latches and accepts, the talker releases DAV, and the block takes `n` more steps, the first four of
which end the operation. -/
def talkerByte (v : Byte) (eoi : Bool) (n : Nat) : List Item :=
  passes 5 ++ drives (talkerOn v eoi) ++ passes 7 ++ drives talkerOff ++ passes n

/-- A conforming talker's bytes, from line `r1` of the first `RECEIVE_BYTE` of a `RECEIVE_MESSAGE` on: after each byte the
block takes lines `m1` and `m2`. -/
def talkerMessage : List (Byte × Bool) → List Item
  | [] => []
  | (v, eoi) :: rest => talkerByte v eoi 6 ++ talkerMessage rest

/-- A byte that stands on the bus with DAV asserted when `RECEIVE_BYTE` is at line `r1`, and is released after the block
has accepted it; then `n` more steps, the first four of which end the operation. -/
def talkerWaiting (n : Nat) : List Item := passes 12 ++ drives talkerOff ++ passes n

/-- A conforming listener (R168), from line `s2` of `SEND_BYTE` on: it lets `polls` polls of the `WAIT` at line `s7` pass,
asserts NRFD and releases NDAC, and after DAV is released asserts NDAC and releases NRFD. -/
def listenerByte (polls : Nat) : List Item :=
  passes (10 + 2 * polls) ++ drives { BusDrive.none with nrfd := some true } ++
    drives { BusDrive.none with ndac := some false } ++ passes 3 ++
    drives { BusDrive.none with ndac := some true } ++ drives { BusDrive.none with nrfd := some false } ++ passes 1

/-! ### The states the rules leave -/

/-- A request that returns: the block is idle and the result is recorded (R100, R345). -/
def State.returned (s : State) (r : Ret) : State :=
  { s with pc := [], ret := r, out.results := s.out.results ++ [r] }

/-- An operation that ends with result `r`: its caller, the top of `rest`, gets `r`; nobody's caller is the requester
(R21, R100). -/
def State.handed (s : State) (r : Ret) (rest : List Frame) : State :=
  if rest = [] then s.returned r else { s with pc := rest, ret := r }

/-- The exit state of a `SEND_BYTE` whose waits were met without a tick (R159). -/
def State.afterSend (s : State) : State :=
  { s with hs.xcvr := .talk, hs.tmoCnt := 0#16, hs.tickEn := false, drv.nrfd := false, drv.ndac := false,
           drv.dav := false, drv.eoi := false, drv.dio := 0x00#8 }

/-- The exit state of a `RECEIVE_BYTE` that took byte `v` with EOI state `eoi`, without a tick (R166). -/
def State.afterReceive (s : State) (v : Byte) (eoi : Bool) : State :=
  { s with hs := { tmoCnt := 0#16, tickEn := false, xcvr := .listen, latData := v, latEoi := eoi },
           drv.dav := false, drv.eoi := false, drv.dio := 0x00#8, drv.ndac := true, drv.nrfd := false }

/-- What `RECEIVE_MESSAGE` appends at its end (R187). -/
def State.eotBytes (s : State) : List Byte := if s.cfg.eotEnable then [s.cfg.eotChar] else []

/-- Nobody but the block drives DAV, EOI or the data lines. -/
def State.noTalker (s : State) : Prop := s.rem.dav = false ∧ s.rem.eoi = false ∧ s.rem.dio = 0x00#8

/-- The next step takes instruction `i` off the schedule. -/
def State.takes (s : State) (i : Instr) : Prop :=
  ∃ bs q, s.inbox = .message bs :: q ∧ decode .request bs = .ok i ∧ s.admits i = true

/-- Nobody on the bus drives a line, and the environment has no move scheduled: the silent bus of vector H8. -/
def State.silent (s : State) : Prop := s.rem = Drives.released ∧ s.inbox = []

/-! ### Nesting of operations (R21) -/

/-- An operation with its operands, whatever its line. -/
inductive Op where
  | boot
  | wait (cond : WaitCond)
  | sendByte (value : Byte) (assertEoi : Bool)
  | receiveByte
  | sendCommand (byte : Byte)
  | sendData
  | receiveMessage (mode : RecvMode) (stopChar : Byte)
  | addressingSetup
  | readStatusByte
  | sendIfc
  | groupTrigger
  | devClear
  | deviceCycle
  | listenOnlyCycle
  | mainCycle
  | setRole
  | setListenOnly
  deriving DecidableEq, Repr

/-- The operation a frame is inside. -/
def Frame.op : Frame → Op
  | .boot _ => .boot
  | .wait c _ => .wait c
  | .sendByte v e _ => .sendByte v e
  | .receiveByte _ => .receiveByte
  | .sendCommand b _ => .sendCommand b
  | .sendData _ _ => .sendData
  | .receiveMessage m c _ => .receiveMessage m c
  | .addressingSetup _ => .addressingSetup
  | .readStatusByte _ _ _ _ => .readStatusByte
  | .sendIfc _ => .sendIfc
  | .groupTrigger _ _ _ => .groupTrigger
  | .devClear _ => .devClear
  | .deviceCycle _ => .deviceCycle
  | .listenOnlyCycle _ => .listenOnlyCycle
  | .mainCycle _ => .mainCycle
  | .setRole _ _ => .setRole
  | .setListenOnly _ _ => .setListenOnly

/-- A `SEND_BYTE` of any value, with this EOI operand. -/
def Op.isSendByte (eoi : Bool) : Op → Bool
  | .sendByte _ e => e == eoi
  | _ => false

/-- A `SEND_COMMAND` of any byte. -/
def Op.isSendCommand : Op → Bool
  | .sendCommand _ => true
  | _ => false

/-- What a line of `READ_STATUS_BYTE` calls (R204). -/
def ReadStatusLine.calls (o : Op) : ReadStatusLine → Bool
  | .p3 _ => o.isSendCommand
  | .p4 => decide (o = .receiveByte)
  | .p5 _ => decide (o = .sendCommand Cmd.spd.byte)
  | .p6 _ => decide (o = .sendCommand Cmd.unt.byte)

/-- What a line of `DEVICE_CYCLE` calls (R240, R245, R249, R250, R251): `v5` is where `dev_clear()` and `ifc_reset()` end. -/
def DeviceCycleLine.calls (o : Op) : DeviceCycleLine → Bool
  | .v2Ret => decide (o = .receiveByte)
  | .v3Ret => o.isSendByte false
  | .v4Ret => decide (o = .receiveMessage .untilEoi 0x00#8)
  | .v5 => decide (o = .devClear)
  | .v1 => false
  | .v2 => false
  | .v3 => false
  | .v3Srq => false
  | .v3Disarm => false
  | .v4 => false

/-- What a line of `LISTEN_ONLY_CYCLE` calls (R270). -/
def ListenOnlyLine.calls (o : Op) : ListenOnlyLine → Bool
  | .l2Ret => decide (o = .receiveByte)
  | .l3Ret => decide (o = .receiveMessage .untilEoi 0x00#8)
  | .l1 => false
  | .l1Talker => false
  | .l1Acceptor => false
  | .l2 => false
  | .l3 => false

/-- What a line of `MAIN_CYCLE` calls (R280, R282, R283, R284). -/
def MainCycleLine.calls (o : Op) : MainCycleLine → Bool
  | .k2Ret => decide (o = .sendData)
  | .k2Byte todo => o.isSendByte false || (todo.isEmpty && o.isSendByte true)
  | .k3Ret => decide (o = .deviceCycle) || decide (o = .listenOnlyCycle)
  | .k1 => false
  | .k2 _ => false
  | .k3 => false

/-- `f.calls o`: the line of `f` calls operation `o`, with the operands the rule gives it (R155, R160, R180, R182, R185,
R200, R204, R210, R240, R270, R280).  So `SEND_COMMAND` sends its own byte with EOI off, and `SEND_DATA` puts EOI on its
last byte only (R184). -/
def Frame.calls (f : Frame) (o : Op) : Bool :=
  match f with
  | .boot _ => false
  | .wait _ _ => false
  | .sendByte _ _ l =>
    (decide (l = .s4) && decide (o = .wait .nrfdReleased)) || (decide (l = .s7) && decide (o = .wait .ndacReleased))
  | .receiveByte l =>
    (decide (l = .r4) && decide (o = .wait .davAsserted)) || (decide (l = .r8) && decide (o = .wait .davReleased))
  | .sendCommand b l => decide (l = .c3) && decide (o = .sendByte b false)
  | .sendData todo u => o.isSendByte (u && todo.isEmpty)
  | .receiveMessage _ _ l => decide (l = .m1) && decide (o = .receiveByte)
  | .addressingSetup _ => o.isSendCommand
  | .readStatusByte _ _ _ l => l.calls o
  | .sendIfc _ => false
  | .groupTrigger _ _ l =>
    (decide (l = .addressing) && decide (o = .addressingSetup)) ||
      (decide (l = .trigger) && decide (o = .sendCommand Cmd.get.byte))
  | .devClear _ => false
  | .deviceCycle l => l.calls o
  | .listenOnlyCycle l => l.calls o
  | .mainCycle l => l.calls o
  | .setRole _ _ => false
  | .setListenOnly _ _ => false

/-- An operation that may stand at the bottom of the stack: any but a `WAIT`, which only an operation calls, and
`dev_clear()`, which only a device cycle calls. -/
def Frame.isRoot : Frame → Bool
  | .wait _ _ => false
  | .devClear _ => false
  | _ => true

/-- "Operations nest only as their pseudocode calls one another" (R21). -/
def nested : List Frame → Bool
  | [] => true
  | [f] => f.isRoot
  | f :: g :: rest => g.calls f.op && nested (g :: rest)

/-! ### The tick (R32, R351) -/

/-- The sequencer polls inside a `WAIT`: after `w2`, before the exit. -/
def polling : List Frame → Bool
  | .wait _ .w3 :: _ => true
  | .wait _ .w4 :: _ => true
  | _ => false

/-- `tick_en` is true exactly while a `WAIT` polls (R32, R351). -/
def State.tickDisciplined (s : State) : Prop := s.hs.tickEn = polling s.pc

/-! ### Drives -/

/-- A `SET_ROLE` is between its first line, which writes `role`, and the line that leaves the drives of the new role
(R255). -/
def changingRole : List Frame → Bool
  | .setRole _ _ :: _ => true
  | _ => false

/-- Drive consistency (R88).  The lines of a role are consistent but for the lines of a `SET_ROLE` (R255, log entry 7). -/
def State.drivesConsistent (s : State) : Prop :=
  (s.hs.xcvr = .listen → s.drv.dav = false ∧ s.drv.eoi = false ∧ s.drv.dio = 0x00#8) ∧
  (s.hs.xcvr = .talk → s.drv.nrfd = false ∧ s.drv.ndac = false) ∧
  (changingRole s.pc = false →
    (s.cfg.role = .device → s.drv.atn = false ∧ s.drv.ifc = false ∧ s.drv.ren = false) ∧
    (s.cfg.role = .controller → s.drv.srq = false))

/-- The transceiver direction an operation has set at its first line (R155 line `s1`, R160 line `r1`), or on the line before
the one that holds NDAC (R270 line `l1`, R257). -/
def Frame.directionOk (x : Xcvr) : Frame → Bool
  | .sendByte _ _ l => decide (l = .s1) || decide (x = .talk)
  | .receiveByte l => decide (l = .r1) || decide (x = .listen)
  | .listenOnlyCycle l => !(decide (l = .l1Talker) || decide (l = .l1Acceptor)) || decide (x = .listen)
  | .setListenOnly _ l => decide (l ≠ .n4) || decide (x = .listen)
  | _ => true

/-- Before boot has set the idle drives, no line is driven (R340, R342). -/
def Frame.bootOk (d : Drives) : Frame → Bool
  | .boot .b1 => decide (d = Drives.released)
  | .boot .b2 => decide (d = Drives.released)
  | _ => true

/-- What the lines of `SET_ROLE` before this one have written (R255): `role`; then ATN, IFC and SRQ; then REN. -/
def SetRoleLine.done (new role : Role) (d : Drives) : SetRoleLine → Bool
  | .t2 => decide (role = new)
  | .t3 => decide (role = new)
  | .t4 => decide (role = new) && !d.atn && !d.ifc && !d.srq
  | .t5 => decide (role = new) && !d.atn && !d.ifc && !d.srq
  | .t6 => decide (role = new) && !d.atn && !d.ifc && !d.srq && (d.ren == decide (new = .controller))

/-- What a `SET_ROLE` has written at its line. -/
def Frame.roleOk (role : Role) (d : Drives) : Frame → Bool
  | .setRole new l => l.done new role d
  | _ => true

/-- What makes `drivesConsistent` an invariant: the byte engine's direction, the drives before boot's line `b2`, and what
a `SET_ROLE` has written so far. -/
def State.directionsOk (s : State) : Prop :=
  s.pc.all (Frame.directionOk s.hs.xcvr) = true ∧ s.pc.all (Frame.bootOk s.drv) = true ∧
    s.pc.all (Frame.roleOk s.cfg.role s.drv) = true

/-- What `DAV`, `EOI` and `DIO` carry at a line of `SEND_BYTE` (R157, R158). -/
def SendByteLine.talker (value : Byte) (assertEoi : Bool) : SendByteLine → Bool × Bool × Byte
  | .s1 => (false, false, 0x00#8)
  | .s2 => (false, false, 0x00#8)
  | .s3 => (false, false, 0x00#8)
  | .s4 => (false, false, value)
  | .s5 => (false, false, value)
  | .s6 => (false, assertEoi, value)
  | .s7 => (true, assertEoi, value)
  | .s8 => (true, assertEoi, value)
  | .s9 => (false, assertEoi, value)

/-- What `DAV`, `EOI` and `DIO` carry at a sequencer position: released outside `SEND_BYTE` (R157, R158, R159). -/
def talkerLines : List Frame → Bool × Bool × Byte
  | [] => (false, false, 0x00#8)
  | .sendByte v e l :: _ => l.talker v e
  | _ :: rest => talkerLines rest

/-- The talker lines carry what the sequencer position says. -/
def State.talkerOk (s : State) : Prop := (s.drv.dav, s.drv.eoi, s.drv.dio) = talkerLines s.pc

/-- What `NRFD` and `NDAC` are at a line of `RECEIVE_BYTE` whose earlier lines have set them (R161, R164). -/
def ReceiveByteLine.acceptorOk (nrfd ndac : Bool) : ReceiveByteLine → Bool
  | .r1 => true
  | .r2 => true
  | .r3 => ndac
  | .r4 => !nrfd && ndac
  | .r5 => !nrfd && ndac
  | .r6 => !nrfd && ndac
  | .r7 => nrfd && ndac
  | .r8 => nrfd && !ndac
  | .r9 => nrfd && !ndac
  | .r10 => nrfd && ndac

/-- The acceptor lines at a sequencer position inside `RECEIVE_BYTE`. -/
def acceptorLines (d : Drives) : Frame → Bool
  | .receiveByte l => l.acceptorOk d.nrfd d.ndac
  | _ => true

/-- The acceptor lines are in the order of rule R160. -/
def State.acceptorOk (s : State) : Prop := s.pc.all (acceptorLines s.drv) = true

/-- A `SEND_COMMAND` holds ATN: from its line `c2` to its line `c4` (R181). -/
def Frame.holdsAtn : Frame → Bool
  | .sendCommand _ .c3 => true
  | .sendCommand _ .c4 => true
  | _ => false

/-- A `SEND_IFC` holds IFC: from its line `i2` to its line `i4` (R208). -/
def Frame.holdsIfc : Frame → Bool
  | .sendIfc .i3 => true
  | .sendIfc .i4 => true
  | _ => false

/-- ATN is asserted exactly inside `SEND_COMMAND`, IFC exactly inside `SEND_IFC` (R181, R208). -/
def State.controlLinesOk (s : State) : Prop :=
  s.drv.atn = s.pc.any Frame.holdsAtn ∧ s.drv.ifc = s.pc.any Frame.holdsIfc

/-! ### Device state -/

/-- `listening` and `talking` are never both true (R253). -/
def State.addressedOnce (s : State) : Prop := ¬ (s.dev.listening = true ∧ s.dev.talking = true)

/-- No device flag is set. -/
def Device.idle (d : Device) : Bool := !d.listening && !d.talking && !d.spArmed

/-- A device cycle past its check runs in Device role and not in listen-only mode (R240). -/
def Frame.deviceOk (c : ConfigRegs) : Frame → Bool
  | .deviceCycle l => decide (l = .v1) || (decide (c.role = .device) && !c.listenOnly)
  | _ => true

/-- A `SET_ROLE` has written `role` and not yet the device flags (R255, its second line). -/
def flagsPending : List Frame → Bool
  | .setRole _ .t2 :: _ => true
  | _ => false

/-- Boot runs with every device flag clear (R340). -/
def Frame.bootIdle (d : Device) : Frame → Bool
  | .boot _ => d.idle
  | _ => true

/-- The device flags are held false in Controller role (R311), but for the line of `SET_ROLE` that clears them (R255, log
entry 7), together with what makes that an invariant. -/
def State.flagsHeld (s : State) : Prop :=
  (s.cfg.role = .controller → flagsPending s.pc = false → s.dev.idle = true) ∧ s.pc.all (Frame.deviceOk s.cfg) = true ∧
    s.pc.all (Frame.bootIdle s.dev) = true

/-! ### Configuration -/

/-- The configuration registers lie in their ranges (R45, R46, R51). -/
def ConfigRegs.inRange (c : ConfigRegs) : Prop :=
  c.timeoutMs.toNat ≤ 3000 ∧ 1 ≤ c.myPad.toNat ∧ c.myPad.toNat ≤ 30 ∧ c.mySad.toNat ≤ 30

/-! ### The receiver -/

/-- Rule R30 (a), (b), (d) and (e), with what the leading `++` lookahead says of the record (R28): while it is not over, no
byte is stored, no escape is armed, and the record is neither a command record nor discarded. -/
def Receiver.ok (r : Receiver) : Prop :=
  r.len.toNat ≤ 253 ∧
  (r.mode = .normal → 0 < r.len.toNat → r.used + 2 + r.len.toNat ≤ 255) ∧
  (r.mode = .discard → r.len = 0x00#8) ∧
  (r.lead ≠ .body → r.len = 0x00#8 ∧ r.esc = false ∧ r.cmd = false ∧ r.mode = .normal)

/-- The receiver after `force_flush()`, written out from rule R128. -/
def Receiver.flushed (r : Receiver) : Receiver :=
  { r with ring := Memory.write (Memory.write r.ring r.head.toNat (if r.cmd then 0x01#8 else 0x00#8))
             (r.head + 1#8).toNat 253#8,
           head := r.head + 255#8, len := 0x00#8 }

/-- `r'` is what `store(c)` leaves of `r` (R125), with the collision check and the write written out; `flushed` first when
the record holds 253 bytes. -/
def Receiver.stores (r : Receiver) (c : Byte) (r' : Receiver) : Prop :=
  let f := if r.len.toNat = 253 then r.flushed else r
  (f.used + 2 + f.len.toNat + 1 > 255 →
    r' = { f with len := 0x00#8, cmd := false, esc := false, mode := .discard }) ∧
  (f.used + 2 + f.len.toNat + 1 ≤ 255 →
    r' = { f with ring := Memory.write f.ring (f.head + 2#8 + f.len).toNat c, len := f.len + 1#8 })

/-- Ring address `a` lies in `[rd, head)` modulo 256: an unread record holds it (R69). -/
def Receiver.occupied (r : Receiver) (a : Byte) : Prop := (a - r.rd).toNat < r.used

/-- A record header rule R62 allows, within `left` bytes. -/
def Record.headerOk (x : Record) (left : Nat) : Bool :=
  (x.flag == Config.flagData || x.flag == Config.flagCommand) && decide (x.len.toNat ≤ Config.maxPayload) &&
    decide (2 + x.len.toNat ≤ left)

/-- The records laid out back to back from ring address `o` in exactly `left` bytes (R62), oldest first; `none` when the
bytes are no whole number of records.  Each record has two bytes at least, so `left` bounds their number. -/
def Receiver.recordsFrom (r : Receiver) : (fuel : Nat) → (o : Byte) → (left : Nat) → Option (List Record)
  | _, _, 0 => some []
  | 0, _, _ + 1 => none
  | fuel + 1, o, left + 1 =>
    let x := r.recordAt o
    if x.headerOk (left + 1) then
      (r.recordsFrom fuel (o + 2#8 + x.len) (left + 1 - (2 + x.len.toNat))).map (x :: ·)
    else none

/-- The unread records, oldest first (R30 (c), R134). -/
def Receiver.records (r : Receiver) : Option (List Record) := r.recordsFrom r.used r.rd r.used

/-- The receiver's invariant: the ring's contents in canonical form, and rule R30, with (c) as `records`. -/
def State.receiverOk (s : State) : Prop :=
  Memory.wf s.rx.ring = true ∧ s.rx.ok ∧ s.rx.records.isSome = true

/-! ### Everything that only grows -/

/-- Every port history of `x` is the beginning of that of `y` (R52). -/
def Ports.grows (x y : Ports) : Prop :=
  x.linkTx <+: y.linkTx ∧ x.dispatch <+: y.dispatch ∧ x.devEvent <+: y.devEvent ∧ x.loLog <+: y.loLog ∧
    x.persistRequest <+: y.persistRequest ∧ x.results <+: y.results

/-! ### Listen-only mode (R275) -/

/-- The positions of a main cycle in listen-only mode: none of them sends. -/
def Frame.onlyListens : Frame → Bool
  | .wait _ _ => true
  | .receiveByte _ => true
  | .receiveMessage _ _ _ => true
  | .listenOnlyCycle _ => true
  | .mainCycle .k1 => true
  | .mainCycle (.k2 _) => true
  | .mainCycle .k3 => true
  | .mainCycle .k3Ret => true
  | _ => false

/-- The block's drives assert no line that `d` did not, of the lines a listen-only block never asserts, and drive no
data (R275). -/
def Drives.transmitsNothing (d e : Drives) : Prop :=
  (e.dav = true → d.dav = true) ∧ (e.eoi = true → d.eoi = true) ∧ (e.atn = true → d.atn = true) ∧
    (e.ifc = true → d.ifc = true) ∧ (e.srq = true → d.srq = true) ∧ (e.ren = true → d.ren = true) ∧
    (e.dio = d.dio ∨ e.dio = 0x00#8)

end Sys2Proof.Machine
end

