-- ==== Sys2Proof/Certificates/Slice0/Obligations.lean ====
section
/-!
DEFINITION. The statements for the provers, in the order of the spec's files: encodings, the framed receiver, the handshake
engine, the transport, the controller operations, device mode, listen-only mode, the main cycle, events, reset and boot,
and the invariants of the whole machine.  OBLIGATIONS.json gives each its tier, its basis and the rules it formalises.

A run stands in a statement as `Executes k s t tr`: `k` steps lead from `s` to `t`, and the block puts the bytes `tr` on
the bus in them.  `exec` runs a request's first line, so a completion statement is `exec i s = .next t` together with the
run from `t` to the state in which the request has returned.
-/

open Sys2Proof Sys2Proof.Machine

/-! ### Encodings -/

/-- Every well-formed instruction is what its own bytes decode to, on its own interface (R100, R101, R91, R92, R95).  The
layout of a message after its code byte is the model's (log entry 2). -/
def Obligations.DecodeEncodeRoundTrip : Prop :=
  ∀ i : Instr, i.wf = true → decode i.port (encode i) = .ok i

/-- A message has one meaning: one that decodes is the encoding of the instruction it decodes to, which is well-formed
(R100, R101, R103; layout: log entry 2). -/
def Obligations.AcceptedMessagesAreEncodings : Prop :=
  ∀ bs i, decodeMessage bs = .ok i → i.wf = true ∧ encode i = bs ∧ i.port = .request

/-- Codes outside the tables, enumeration codes out of range and group-trigger lists longer than 15 are refused, an address
out of range is not, and a step that meets a refused message is refused (R103; operand layout: log entry 2). -/
def Obligations.UndefinedMessagesRefused : Prop :=
  (∀ code ops, ¬ (0x01 ≤ code.toNat ∧ code.toNat ≤ 0x12) → ¬ (0x80 ≤ code.toNat ∧ code.toNat ≤ 0x83) →
    decodeMessage (code :: ops) = .error (.undefinedCode code)) ∧
  (∀ m c, 2 < m.toNat → decodeMessage [0x05#8, m, c] = .error .operandOutOfType) ∧
  (∀ pad sad u d, 1 < d.toNat → decodeMessage [0x06#8, pad, sad, boolByte u, d] = .error .operandOutOfType) ∧
  (∀ r, 1 < r.toNat → decodeMessage [0x0E#8, r] = .error .operandOutOfType) ∧
  (∀ ts, 15 < ts.length → decodeMessage (0x09#8 :: targetBytes ts) = .error .operandOutOfType) ∧
  (∀ pad sad u d, decodeMessage [0x06#8, pad, sad, boolByte u, Direction.code d] =
    .ok (.addressingSetup pad sad u d)) ∧
  (∀ s bs q e, s.inbox = .message bs :: q → decodeMessage bs = .error e → step s = .refused (.undefinedMessage e))

/-- `decode(b)` of rule R221, for every byte and both values of `MASK_DIO8`. -/
def Obligations.CommandByteDecoding : Prop :=
  ∀ (mask : Bool) (b : Byte),
    (mask = false → 0x80 ≤ b.toNat → decodeCommand mask b = .other b) ∧
    (mask = true ∨ b.toNat < 0x80 →
      let c := b &&& 0x7F#8
      decodeCommand mask b =
        if c.toNat = 0x3F then .unl
        else if c.toNat = 0x5F then .unt
        else if 0x20 ≤ c.toNat ∧ c.toNat ≤ 0x3E then .mla (c - 0x20#8)
        else if 0x40 ≤ c.toNat ∧ c.toNat ≤ 0x5E then .mta (c - 0x40#8)
        else if 0x60 ≤ c.toNat ∧ c.toNat ≤ 0x7E then .msa (c - 0x60#8)
        else if c.toNat = 0x01 then .gtl
        else if c.toNat = 0x04 then .sdc
        else if c.toNat = 0x08 then .get
        else if c.toNat = 0x11 then .llo
        else if c.toNat = 0x14 then .dcl
        else if c.toNat = 0x18 then .spe
        else if c.toNat = 0x19 then .spd
        else .other c)

/-- Words written out from the tables decode to the instructions they stand for: request and event codes (R100, R101),
command codes (R91), link characters (R95).  The operand bytes of the messages are laid out by log entry 2.  In the other
direction, the numeric codes of the results: `Ok` is 0 and the error kinds are 1 to 5 (R300), the end reasons 0 to 2
(R102). -/
def Obligations.KnownWordsDecode : Prop :=
  decode .request [0x01#8, 0x41#8, 0x01#8] = .ok (.sendByte 0x41#8 true) ∧
  decode .request [0x08#8] = .ok .sendIfc ∧
  decode .request [0x0D#8] = .ok .mainCycle ∧
  decode .request [0x81#8] = .ok .tick ∧
  decode (.command true) [0x3F#8] = .ok .unl ∧
  decode (.command true) [0xA5#8] = .ok (.mla 5#8) ∧
  decode (.command true) [0x45#8] = .ok (.mta 5#8) ∧
  decode (.command true) [0x14#8] = .ok .dcl ∧
  decode (.link .normal false .start) [0x1B#8] = .ok .esc ∧
  decode (.link .normal false .onePlus) [0x2B#8] = .ok .leadingPlusPair ∧
  decode (.link .normal true .body) [0x0D#8] = .ok (.escaped 0x0D#8) ∧
  (∀ b eoi, Ret.ok.resultCode = some 0 ∧ (Ret.okByteEoi b eoi).resultCode = some 0 ∧
    (Ret.okByte b).resultCode = some 0) ∧
  (Ret.err .handshakeTimeout).resultCode = some 1 ∧ (Ret.err .busContention).resultCode = some 2 ∧
  (Ret.err .roleViolation).resultCode = some 3 ∧ (Ret.err .invalidAddress).resultCode = some 4 ∧
  (Ret.err .invalidConfig).resultCode = some 5 ∧
  EndReason.eoi.code = 0 ∧ EndReason.stopChar.code = 1 ∧ EndReason.timeout.code = 2

/-- A step runs the instruction the decoder reads.  A message the block can take runs as its instruction, with the message
off the schedule; one it cannot take waits while the main loop goes on (R285, R305); between messages the main loop runs
the line its position names (R21) or, when idle, the next `MAIN_CYCLE` (R286).  Where the schedule says nothing, a tick
comes when it is owed: a `WAIT` polls while `tick_en`, its condition does not hold, and its bound is not yet exceeded
(R312, R315; log entry 8).  A byte accepted under ATN runs as its decoded command (R223, R241), and a one-byte burst as
the class of its byte (R121). -/
def Obligations.StepRunsDecodedInstruction : Prop :=
  ∀ s : State,
    (∀ bs q i, s.inbox = .message bs :: q → decode .request bs = .ok i →
      (s.admits i = true → step s = exec i { s with inbox := q }) ∧
      (s.admits i = false → s.tickDue = false → step s = mainStep s) ∧
      (s.admits i = false → s.tickDue = true → step s = exec .tick s)) ∧
    (∀ q, s.inbox = .pass :: q → step s = mainStep { s with inbox := q }) ∧
    (s.inbox = [] → s.tickDue = false → step s = mainStep s) ∧
    (s.inbox = [] → s.tickDue = true → step s = exec .tick s) ∧
    (s.tickDue = true ↔ ∃ c rest, s.pc = .wait c .w4 :: rest ∧ s.hs.tickEn = true ∧ c.holds s.bus = false ∧
      s.hs.tmoCnt.toNat ≤ s.cfg.timeoutMs.toNat) ∧
    (∀ f rest, s.pc = f :: rest → mainStep s = runLine f rest s) ∧
    (s.pc = [] → mainStep s = exec .mainCycle s) ∧
    (∀ rest b eoi, s.pc = .deviceCycle .v2Ret :: rest → s.ret = .okByteEoi b eoi →
      mainStep s = exec (decodeCommand s.par.maskDio8 b).toInstr { s with pc := .deviceCycle .v5 :: rest }) ∧
    (∀ b, 1 ≤ s.par.rxBurstMax →
      exec (.rxBurst [b]) s = exec (classify s.rx.mode s.rx.esc s.rx.lead b).toInstr s)

/-- A request issued while an operation runs has no meaning (R285, R315, R360), and an idle block refuses none of the
requests: each answers a next state.  That the refusal has this name is the model's choice (log entry 10). -/
def Obligations.RequestsNeedIdleBlock : Prop :=
  ∀ i s, i.kind = .request →
    (s.pc ≠ [] → exec i s = .refused .requestWhileBusy) ∧ (s.pc = [] → ∃ t, exec i s = .next t)

/-! ### The framed receiver -/

/-- `RX_BURST` (R120, R130): the bytes are processed in order, and those after the byte that terminates a line are dropped.
A byte terminates in `Normal` mode and in `Discard` mode alike, when it is an unescaped CR or LF.  Nothing but the receiver
changes; a burst longer than `RX_BURST_MAX` is refused (R103).  Each byte runs as its class (R121, R95): `Discard` first,
then the escape, then the value. -/
def Obligations.BurstInOrderUpToTerminator : Prop :=
  (∀ (s : State) (c : Byte),
    ∃ i, exec i s = .next { s with rx := s.rx.rxByte c } ∧
      i = if s.rx.mode = .discard then .discard c
        else if s.rx.esc then .escaped c
        else if c = 0x1B#8 then .esc
        else if c = 0x2B#8 then (if s.rx.lead = .onePlus then .leadingPlusPair else .plus)
        else if c = 0x0D#8 then .cr
        else if c = 0x0A#8 then .lf
        else .lit c) ∧
  (∀ bs s, bs.length ≤ s.par.rxBurstMax → exec (.rxBurst bs) s = .next { s with rx := s.rx.burst bs }) ∧
  (∀ bs s, s.par.rxBurstMax < bs.length → exec (.rxBurst bs) s = .refused .burstTooLong) ∧
  (∀ r : Receiver, r.burst [] = r) ∧
  (∀ (r : Receiver) c cs, r.burst (c :: cs) =
    if r.esc = false ∧ (c = 0x0D#8 ∨ c = 0x0A#8) then r.rxByte c else (r.rxByte c).burst cs)

/-- Unescaped ESC (R122), unescaped `+` outside a leading pair (R123), and the leading `++` pair (R124): both its bytes are
stored, and the record is a command record unless a store collided. -/
def Obligations.EscapeAndPlusRules : Prop :=
  (∀ s : State, ∃ r1 r2 : Receiver,
    Receiver.stores { s.rx with lead := .body } 0x2B#8 r1 ∧
    (r1.mode = .normal → r1.stores 0x2B#8 r2) ∧ (r1.mode = .discard → r2 = r1) ∧
    exec .leadingPlusPair s =
      .next { s with rx := if r2.mode = .normal then { r2 with cmd := true } else r2 }) ∧
  ∀ s : State,
    exec .esc s = .next { s with rx.lead := .body, rx.esc := true } ∧
    (s.rx.lead = .start → exec .plus s = .next { s with rx.lead := .onePlus }) ∧
    (s.rx.lead = .body → exec .plus s = .next s) ∧
    (s.rx.lead = .onePlus → exec .plus s = exec .leadingPlusPair s)

/-- A literal byte (R131) and an escaped byte (R126) are stored by rule R125, collision and forced flush included. -/
def Obligations.LiteralAndEscapedStored : Prop :=
  ∀ (s : State) (c : Byte),
    (∃ r, exec (.lit c) s = .next { s with rx := r } ∧ Receiver.stores { s.rx with lead := .body } c r) ∧
    (∃ r, exec (.escaped c) s = .next { s with rx := r } ∧ Receiver.stores { s.rx with esc := false } c r)

/-- An unescaped terminator finalizes the record (R127): header, then `head`; the empty record that does not fit is
dropped. -/
def Obligations.TerminatorFinalizes : Prop :=
  ∀ s : State,
    let r := s.rx
    let fresh (x : Receiver) : Receiver := { x with len := 0x00#8, cmd := false, esc := false, lead := .start }
    let t : State :=
      if r.used + 2 + r.len.toNat ≤ 255 then
        { s with rx := fresh { r with
            ring := Memory.write (Memory.write r.ring r.head.toNat (if r.cmd then 0x01#8 else 0x00#8))
              (r.head + 1#8).toNat r.len,
            head := r.head + 2#8 + r.len } }
      else { s with rx := fresh r }
    exec .cr s = .next t ∧ exec .lf s = .next t

/-- `Discard` mode (R129): escapes are tracked, the first unescaped terminator ends it, and the ring and the cursors are
untouched. -/
def Obligations.DiscardDropsLine : Prop :=
  ∀ (s : State) (c : Byte),
    exec (.discard c) s = .next
      (if s.rx.esc then { s with rx.esc := false }
       else if c = 0x1B#8 then { s with rx.esc := true }
       else if c = 0x0D#8 ∨ c = 0x0A#8 then
         { s with rx.mode := .normal, rx.len := 0x00#8, rx.cmd := false, rx.lead := .start }
       else s)

/-- `POP_RECORD` (R132): `None` on an empty buffer, else the record's bytes with zeros after them, 256 bytes in all, and
the read cursor past the record.  A record's length is at most 253 (R62). -/
def Obligations.PopRecordRule : Prop :=
  ∀ s : State, s.pc = [] →
    (s.rx.rd = s.rx.head → exec .popRecord s = .next (s.returned .noRecord)) ∧
    (∀ n, s.rx.rd ≠ s.rx.head → s.rx.memRead (s.rx.rd + 1#8) = n → n.toNat ≤ 253 →
      exec .popRecord s = .next
        ({ s with rx.rd := s.rx.rd + 2#8 + n }.returned
          (.record (s.rx.memRead s.rx.rd :: n ::
            ((List.range n.toNat).map fun i => s.rx.memRead (s.rx.rd + 2#8 + BitVec.ofNat 8 i)) ++
            List.replicate (254 - n.toNat) 0x00#8))))

/-- First in, first out, whole records (R134, R127, R128, R132), in any receiver state that keeps rule R30: a byte appends
at most one record to the unread ones, and then exactly the record in progress; popping takes the oldest and leaves the
rest; a stored byte is appended to the payload in progress. -/
def Obligations.RecordsFirstInFirstOut : Prop :=
  ∀ (r : Receiver) (xs : List Record), Memory.wf r.ring = true → r.ok → r.records = some xs →
    (∀ c, (classify r.mode r.esc r.lead c = .cr ∨ classify r.mode r.esc r.lead c = .lf) → r.fits = true →
      (r.rxByte c).records =
        some (xs ++ [⟨if r.cmd then 0x01#8 else 0x00#8, r.len, r.payloadAt r.head r.len.toNat⟩])) ∧
    (∀ c, ∃ new, (r.rxByte c).records = some (xs ++ new) ∧ (r.rxByte c).rd = r.rd ∧
      (new = [] ∨ new = [⟨if r.cmd then 0x01#8 else 0x00#8, r.len, r.payloadAt r.head r.len.toNat⟩])) ∧
    (∀ c, (classify r.mode r.esc r.lead c = .lit c ∨ classify r.mode r.esc r.lead c = .escaped c) →
      r.len.toNat < 253 → r.collides = false →
      (r.rxByte c).payloadAt (r.rxByte c).head (r.rxByte c).len.toNat = r.payloadAt r.head r.len.toNat ++ [c]) ∧
    (xs = [] → r.oldest = none ∧ r.popped = r) ∧
    (∀ x ys, xs = x :: ys → r.oldest = some x ∧ r.popped.records = some ys)

/-- A burst writes free bytes only and leaves the read cursor (R69, R136): every byte of an unread record reads as before
and still belongs to an unread record. -/
def Obligations.BurstLeavesUnreadRecords : Prop :=
  ∀ (s t : State) bs, s.rx.ok → exec (.rxBurst bs) s = .next t →
    t.rx.rd = s.rx.rd ∧
      ∀ a, s.rx.occupied a → t.rx.memRead a = s.rx.memRead a ∧ t.rx.occupied a

/-- Rule R30, with the ring's contents in canonical form, is kept by every step of the machine: (a) `rx_len` is at most 253,
(b) the record in progress fits, (c) the bytes from `rd` to `head` are whole records, (d) `Discard` holds no bytes, (e) a
held `+` holds no bytes and no escape. -/
def Obligations.ReceiverInvariantKept : Prop :=
  ∀ s t, s.receiverOk → step s = .next t → t.receiverOk

/-! ### The handshake engine -/

/-- `WAIT` line by line (R150), inside the operation `g` that called it; and a `WAIT` that polls ends when the environment
makes no move but the ticks it owes (R153, R312, R315): it is met when its condition holds, and times out otherwise. -/
def Obligations.WaitLines : Prop :=
  ∀ (s : State) (c : WaitCond) (g : Frame) (rest : List Frame),
    (s.pc = .wait c .w1 :: g :: rest →
      mainStep s = .next { s with hs.tmoCnt := 0#16, pc := .wait c .w2 :: g :: rest }) ∧
    (s.pc = .wait c .w2 :: g :: rest →
      mainStep s = .next { s with hs.tickEn := true, pc := .wait c .w3 :: g :: rest }) ∧
    (s.pc = .wait c .w3 :: g :: rest →
      mainStep s = .next
        (if c.holds s.bus then { s with hs.tickEn := false, pc := g :: rest, ret := .met }
         else { s with pc := .wait c .w4 :: g :: rest })) ∧
    (s.pc = .wait c .w4 :: g :: rest →
      mainStep s = .next
        (if s.hs.tmoCnt.toNat > s.cfg.timeoutMs.toNat then
           { s with hs.tickEn := false, pc := g :: rest, ret := .timedOut }
         else { s with pc := .wait c .w3 :: g :: rest })) ∧
    ((s.pc = .wait c .w3 :: g :: rest ∨ s.pc = .wait c .w4 :: g :: rest) → s.inbox = [] → s.hs.tickEn = true →
      s.cfg.timeoutMs.toNat ≤ 3000 → s.hs.tmoCnt.toNat ≤ s.cfg.timeoutMs.toNat →
      ∃ k, Executes k s
        (if c.holds s.bus then { s with hs.tickEn := false, pc := g :: rest, ret := .met }
         else { s with hs.tickEn := false, hs.tmoCnt := s.cfg.timeoutMs + 1#16, pc := g :: rest, ret := .timedOut }) [])

/-- `SEND_BYTE` with nobody else on the bus (R155, R157, R158, R159): one byte on the bus with the EOI asked for, then the
`Ok()` exit state.  Nothing else changes. -/
def Obligations.SendByteCompletes : Prop :=
  ∀ (s : State) (v : Byte) (eoi : Bool), s.pc = [] → s.talkerOk → s.silent →
    ∃ t k, exec (.sendByte v eoi) s = .next t ∧ Executes k t (s.afterSend.returned .ok) [⟨v, eoi, s.drv.atn⟩]

/-- `SEND_BYTE` to a conforming listener, however many polls it takes to accept (R155, R168): the byte is transferred once,
and the operation returns `Ok()`. -/
def Obligations.SendByteToListener : Prop :=
  ∀ (s : State) (v : Byte) (eoi : Bool) (polls : Nat) (q : List Item), s.pc = [] → s.talkerOk →
    s.rem.nrfd = false → s.rem.ndac = true → s.inbox = listenerByte polls ++ q →
    ∃ t k, exec (.sendByte v eoi) s = .next t ∧
      Executes k t ({ s with inbox := q }.afterSend.returned .ok) [⟨v, eoi, s.drv.atn⟩]

/-- A listener that never asserts ready (R167, R151): while at most `timeout_ms` ticks have come, the wait goes on; after
`timeout_ms + 1` ticks the operation fails with `HandshakeTimeout`, once, with every line it drove released.  With NDAC
asserted as well it fails with `BusContention` before any byte is driven (R156).  A listener that is ready and never accepts
sees the byte with DAV once, and the second wait fails in the same way (R155 line `s7`, R158, R159). -/
def Obligations.SendByteNeverReady : Prop :=
  (∀ (s : State) (v : Byte) (eoi : Bool), s.pc = [] → s.inbox = [] → s.rem.nrfd = true → s.rem.ndac = true →
    ∃ t k, exec (.sendByte v eoi) s = .next t ∧
      Executes k t ({ s with hs.xcvr := .talk, drv.nrfd := false, drv.ndac := false }.returned (.err .busContention)) []) ∧
  (∀ (s : State) (v : Byte) (eoi : Bool) (q : List Item), s.pc = [] → s.talkerOk →
    s.rem.nrfd = false → s.rem.ndac = true → s.cfg.timeoutMs.toNat ≤ 3000 →
    s.inbox = passes 10 ++ ticks (s.cfg.timeoutMs.toNat + 1) ++ passes 3 ++ q →
    ∃ t k, exec (.sendByte v eoi) s = .next t ∧
      Executes k t
        (({ s with inbox := q, hs.xcvr := .talk, hs.tmoCnt := s.cfg.timeoutMs + 1#16, hs.tickEn := false,
                   drv.nrfd := false, drv.ndac := false }).returned (.err .handshakeTimeout))
        [⟨v, eoi, s.drv.atn⟩]) ∧
  ∀ (s : State) (v : Byte) (eoi : Bool) (q : List Item), s.pc = [] → s.talkerOk →
    s.rem.nrfd = true → s.rem.ndac = false → s.cfg.timeoutMs.toNat ≤ 3000 →
    (∀ n, n ≤ s.cfg.timeoutMs.toNat → s.inbox = passes 4 ++ ticks n ++ passes 2 ++ q →
      ∃ t k u, exec (.sendByte v eoi) s = .next t ∧ Executes k t u [] ∧ u.inbox = q ∧
        u.pc = [.wait .nrfdReleased .w3, .sendByte v eoi .s4] ∧ u.hs.tickEn = true ∧ u.hs.tmoCnt.toNat = n) ∧
    (s.inbox = passes 4 ++ ticks (s.cfg.timeoutMs.toNat + 1) ++ passes 3 ++ q →
      ∃ t k, exec (.sendByte v eoi) s = .next t ∧
        Executes k t
          (({ s with inbox := q, hs.xcvr := .talk, hs.tmoCnt := s.cfg.timeoutMs + 1#16, hs.tickEn := false,
                     drv.nrfd := false, drv.ndac := false }).returned (.err .handshakeTimeout)) [])

/-- `RECEIVE_BYTE` from a conforming talker (R160, R163, R164, R166, R168): the byte and its EOI state are latched and
returned once, and the block is left the idle acceptor. -/
def Obligations.ReceiveByteCompletes : Prop :=
  ∀ (s : State) (v : Byte) (eoi : Bool) (q : List Item), s.pc = [] → s.noTalker →
    s.inbox = (talkerByte v eoi 4).tail ++ q →
    ∃ t k, exec .receiveByte s = .next t ∧
      Executes k t (({ s with inbox := q }.afterReceive v eoi).returned (.okByteEoi v eoi)) []

/-- The two timeouts of `RECEIVE_BYTE` (R162, R164, R166).  Without DAV nothing is latched; with DAV never released the
byte is latched and not returned; both leave NRFD and NDAC asserted. -/
def Obligations.ReceiveByteTimeouts : Prop :=
  ∀ (s : State) (q : List Item), s.pc = [] → s.cfg.timeoutMs.toNat ≤ 3000 →
    (s.rem.dav = false → s.inbox = passes 4 ++ ticks (s.cfg.timeoutMs.toNat + 1) ++ passes 3 ++ q →
      ∃ t k, exec .receiveByte s = .next t ∧
        Executes k t
          (({ s with inbox := q, hs.xcvr := .listen, hs.tmoCnt := s.cfg.timeoutMs + 1#16, hs.tickEn := false,
                     drv.dav := false, drv.eoi := false, drv.dio := 0x00#8, drv.ndac := true,
                     drv.nrfd := true }).returned (.err .handshakeTimeout)) []) ∧
    (s.rem.dav = true → s.inbox = passes 11 ++ ticks (s.cfg.timeoutMs.toNat + 1) ++ passes 3 ++ q →
      ∃ t k, exec .receiveByte s = .next t ∧
        Executes k t
          (({ s with inbox := q,
                     hs := { xcvr := .listen, tmoCnt := s.cfg.timeoutMs + 1#16, tickEn := false,
                             latData := s.rem.dio, latEoi := s.rem.eoi },
                     drv.dav := false, drv.eoi := false, drv.dio := 0x00#8, drv.ndac := true,
                     drv.nrfd := true }).returned (.err .handshakeTimeout)) [])

/-- The handshake lines, line by line, in every step of the machine.  The talker lines are released outside `SEND_BYTE` and
carry the byte, EOI and DAV inside it (R157, R158, R159).  The acceptor lines follow the order of rule R160 (R161, R164):
NRFD is asserted before NDAC is released, and NDAC is held whenever the block is ready. -/
def Obligations.HandshakeLinesInvariant : Prop :=
  ∀ s t, nested s.pc = true → step s = .next t →
    (s.talkerOk → t.talkerOk) ∧ (s.acceptorOk → t.acceptorOk)

/-! ### Message transport -/

/-- `SEND_COMMAND` in Controller role with nobody else on the bus (R180, R181): one byte under ATN without EOI, ATN
released, `Ok()`. -/
def Obligations.SendCommandCompletes : Prop :=
  ∀ (s : State) (b : Byte), s.pc = [] → s.talkerOk → s.silent → s.cfg.role = .controller →
    ∃ t k, exec (.sendCommand b) s = .next t ∧
      Executes k t ({ s.afterSend with drv.atn := false }.returned .ok) [⟨b, false, true⟩]

/-- `SEND_DATA` of any buffer with nobody else on the bus (R182, R183, R184, R98): the payload, then the EOS bytes, EOI on
the last byte sent and only there, ATN left alone, `Ok()`. -/
def Obligations.SendDataCompletes : Prop :=
  ∀ (s : State) (buffer : List Byte) (useEoi : Bool), s.pc = [] → s.talkerOk → s.silent →
    let eos : List Byte :=
      if s.cfg.eosMode.toNat = 0 then [0x0D#8, 0x0A#8] else if s.cfg.eosMode.toNat = 1 then [0x0D#8]
      else if s.cfg.eosMode.toNat = 2 then [0x0A#8] else []
    ∃ t k, exec (.sendData buffer useEoi) s = .next t ∧
      Executes k t ((if buffer ++ eos = [] then s else s.afterSend).returned .ok)
        (talkedMessage useEoi s.drv.atn (buffer ++ eos))

/-- `RECEIVE_MESSAGE` from a conforming talker (R185, R186, R187): every byte is forwarded in order, the one that ends the
message included, then the EOT byte when enabled, and the result says why it ended.  EOI ends `UntilEOI`, the stop byte ends
`UntilChar`, and no byte ends `UntilTimeout`. -/
def Obligations.ReceiveMessageCompletes : Prop :=
  (∀ (stop b : Byte) (eoi : Bool),
    messageEnd .untilEoi stop b eoi = (if eoi then some .eoi else none) ∧
    messageEnd .untilChar stop b eoi = (if b = stop then some .stopChar else none) ∧
    messageEnd .untilTimeout stop b eoi = none) ∧
  ∀ (s : State) (mode : RecvMode) (stop : Byte) (init : List (Byte × Bool)) (v : Byte) (eoi : Bool)
    (reason : EndReason) (q : List Item), s.pc = [] → s.noTalker →
    (∀ x ∈ init, messageEnd mode stop x.1 x.2 = none) → messageEnd mode stop v eoi = some reason →
    s.inbox = talkerMessage (init ++ [(v, eoi)]) ++ passes 1 ++ q →
    ∃ t k, exec (.receiveMessage mode stop) s = .next t ∧
      Executes k t
        ((({ s with inbox := q, out.linkTx := s.out.linkTx ++ init.map Prod.fst ++ [v] ++ s.eotBytes }).afterReceive v
          eoi).returned (.ended reason)) []

/-- A message cut short (R185, R186, R187), in every mode: after the bytes received so far, `timeout_ms + 1` ticks without
DAV end it with `End(Timeout)`; those bytes have been forwarded, then the EOT byte when enabled. -/
def Obligations.ReceiveMessageTimesOut : Prop :=
  ∀ (s : State) (mode : RecvMode) (stop : Byte) (init : List (Byte × Bool)) (q : List Item), s.pc = [] → s.noTalker →
    s.cfg.timeoutMs.toNat ≤ 3000 → (∀ x ∈ init, messageEnd mode stop x.1 x.2 = none) →
    s.inbox = talkerMessage init ++ passes 5 ++ ticks (s.cfg.timeoutMs.toNat + 1) ++ passes 5 ++ q →
    ∃ t k u, exec (.receiveMessage mode stop) s = .next t ∧ Executes k t u [] ∧
      u.pc = [] ∧ u.ret = .ended .timeout ∧
      u.out = { s.out with linkTx := s.out.linkTx ++ init.map Prod.fst ++ s.eotBytes,
                           results := s.out.results ++ [Ret.ended .timeout] } ∧
      u.drv = { s.drv with dav := false, eoi := false, dio := 0x00#8, nrfd := true, ndac := true } ∧
      u.hs.xcvr = .listen ∧ u.hs.tickEn = false ∧ u.hs.tmoCnt = s.cfg.timeoutMs + 1#16 ∧
      u.rx = s.rx ∧ u.dev = s.dev ∧ u.cfg = s.cfg ∧ u.rem = s.rem ∧ u.store = s.store ∧ u.par = s.par ∧ u.inbox = q

/-- First error wins (R302, R180, R182, R185, R200, R204, R210, R283, R288): what each calling line does when its call has
returned an error, whether the operation was called (`rest` holds its caller) or requested (`rest = []`).  A message ends
with reason `Timeout`, a data record is given up, and a group trigger keeps the first error and goes on with its next entry:
an entry with an illegal address is left, and a legal one is addressed. -/
def Obligations.FirstErrorEndsOperation : Prop :=
  ∀ (s : State) (e : ErrKind) (rest : List Frame), s.ret = .err e →
    (∀ f, ((∃ todo u, f = .sendData todo u) ∨ (∃ todo, f = .addressingSetup todo) ∨
        ∃ p a u l, f = .readStatusByte p a u l) →
      s.pc = f :: rest → mainStep s = .next (s.handed (.err e) rest)) ∧
    (∀ b, s.pc = .sendCommand b .c3 :: rest →
      mainStep s = .next { s with pc := .sendCommand b .c4 :: rest } ∧
      mainStep { s with pc := .sendCommand b .c4 :: rest } =
        .next ({ s with drv.atn := false }.handed (.err e) rest)) ∧
    (∀ m c, s.pc = .receiveMessage m c .m1 :: rest →
      mainStep s = .next { s with pc := .receiveMessage m c (.m3 .timeout) :: rest }) ∧
    (∀ l, (l = .k2Ret ∨ ∃ todo, l = .k2Byte todo) → s.pc = .mainCycle l :: rest →
      mainStep s = .next { s with pc := .mainCycle .k3 :: rest }) ∧
    (∀ first l, s.pc = .groupTrigger [] first l :: rest →
      mainStep s = .next (s.handed (.err (first.getD e)) rest)) ∧
    (∀ x todo first l, s.pc = .groupTrigger (x :: todo) first l :: rest → s.cfg.role = .controller →
      (x.pad.toNat < 1 ∨ 30 < x.pad.toNat ∨ (x.useSad = true ∧ 30 < x.sad.toNat)) →
      mainStep s = mainStep { s with pc := .groupTrigger todo (some (first.getD e)) l :: rest }) ∧
    (∀ x todo first l, s.pc = .groupTrigger (x :: todo) first l :: rest → s.cfg.role = .controller →
      1 ≤ x.pad.toNat → x.pad.toNat ≤ 30 → (x.useSad = true → x.sad.toNat ≤ 30) →
      mainStep s = .next
        { s with pc := .sendCommand 0x3F#8 .c1 ::
                   .addressingSetup ([0x40#8, 0x20#8 + x.pad] ++ if x.useSad then [0x60#8 + x.sad] else []) ::
                   .groupTrigger todo (some (first.getD e)) .addressing :: rest })

/-! ### Roles and addresses -/

/-- Role checks (R310, R303): a request in the wrong role ends at once with its result and touches no line and no state;
the requests of the last row end in `RoleViolation` in neither role. -/
def Obligations.RoleChecks : Prop :=
  ∀ s : State, s.pc = [] →
    (s.cfg.role = .device →
      (∀ b, exec (.sendCommand b) s = .next (s.returned (.err .roleViolation))) ∧
      (∀ p a u d, exec (.addressingSetup p a u d) s = .next (s.returned (.err .roleViolation))) ∧
      (∀ p a u, exec (.readStatusByte p a u) s = .next (s.returned (.err .roleViolation))) ∧
      exec .sendIfc s = .next (s.returned (.err .roleViolation)) ∧
      (∀ l, exec (.sendGroupTrigger l) s = .next (s.returned (.err .roleViolation)))) ∧
    (s.cfg.role = .controller → ∀ b, exec (.setSrq b) s = .next (s.returned (.err .roleViolation))) ∧
    (s.cfg.role = .controller ∨ s.cfg.listenOnly = true → exec .deviceCycle s = .next (s.returned .done)) ∧
    (s.cfg.role = .controller ∨ s.cfg.listenOnly = false → exec .listenOnlyCycle s = .next (s.returned .done)) ∧
    (∀ i, ((∃ v e, i = .sendByte v e) ∨ i = .receiveByte ∨ (∃ b e, i = .sendData b e) ∨
        (∃ m c, i = .receiveMessage m c) ∨ i = .popRecord ∨ i = .mainCycle ∨ (∃ r, i = .setRole r) ∨
        (∃ b, i = .setListenOnly b) ∨ (∃ v, i = .setStatus v) ∨ (∃ w, i = .setConfig w)) →
      ∃ t, exec i s = .next t ∧
        (t.out.results = s.out.results ∨ ∃ r, r ≠ .err .roleViolation ∧ t.out.results = s.out.results ++ [r]))

/-- Address validation (R201, R205): an address out of range ends the operation with `InvalidAddress` and causes no bus
traffic; `sad` is looked at only when used. -/
def Obligations.InvalidAddressNoTraffic : Prop :=
  ∀ (s : State) (pad sad : Byte) (useSad : Bool), s.pc = [] → s.cfg.role = .controller →
    (pad.toNat < 1 ∨ 30 < pad.toNat ∨ (useSad = true ∧ 30 < sad.toNat)) →
    (∀ d, exec (.addressingSetup pad sad useSad d) s = .next (s.returned (.err .invalidAddress))) ∧
    exec (.readStatusByte pad sad useSad) s = .next (s.returned (.err .invalidAddress))

/-! ### Controller operations -/

/-- SEND SETUP and RECEIVE SETUP with nobody else on the bus (R200, R202, R203): exactly these command bytes, in order,
each under ATN, and `Ok()`. -/
def Obligations.AddressingSetupCompletes : Prop :=
  ∀ (s : State) (pad sad : Byte) (useSad : Bool) (d : Direction), s.pc = [] → s.talkerOk → s.silent →
    s.cfg.role = .controller → 1 ≤ pad.toNat → pad.toNat ≤ 30 → (useSad = true → sad.toNat ≤ 30) →
    let sec : List Byte := if useSad then [0x60#8 + sad] else []
    let seq : List Byte := match d with
      | .send => [0x3F#8, 0x40#8, 0x20#8 + pad] ++ sec
      | .receive => [0x3F#8, 0x20#8, 0x40#8 + pad] ++ sec
    ∃ t k, exec (.addressingSetup pad sad useSad d) s = .next t ∧
      Executes k t ({ s.afterSend with drv.atn := false }.returned .ok) (talkedCommands seq)

/-- The serial poll (R204) with a talker that answers `sb`: UNL, MLA 0, SPE, MTA, the secondary address if used, one byte
read, SPD, UNT, and the byte as the result, its EOI ignored. -/
def Obligations.ReadStatusByteCompletes : Prop :=
  ∀ (s : State) (pad sad : Byte) (useSad : Bool) (sb : Byte) (eoi : Bool) (q : List Item), s.pc = [] → s.talkerOk →
    s.rem = Drives.released → s.cfg.role = .controller → 1 ≤ pad.toNat → pad.toNat ≤ 30 →
    (useSad = true → sad.toNat ≤ 30) →
    let seq : List Byte := [0x3F#8, 0x20#8, 0x18#8, 0x40#8 + pad] ++ if useSad then [0x60#8 + sad] else []
    s.inbox = passes (19 * seq.length) ++ talkerByte sb eoi 43 ++ q →
    ∃ t k, exec (.readStatusByte pad sad useSad) s = .next t ∧
      Executes k t
        ({ ({ s with inbox := q }.afterReceive sb eoi).afterSend with drv.atn := false }.returned (.okByte sb))
        (talkedCommands (seq ++ [0x19#8, 0x5F#8]))

/-- `SEND_IFC` in Controller role (R208, R209): IFC is asserted, held for one step, released, and nothing else changes. -/
def Obligations.SendIfcCompletes : Prop :=
  ∀ s : State, s.pc = [] → s.inbox = [] → s.cfg.role = .controller →
    exec .sendIfc s = .next { s with drv.ifc := true, pc := [.sendIfc .i3] } ∧
    Runs 1 { s with drv.ifc := true, pc := [.sendIfc .i3] } { s with drv.ifc := true, pc := [.sendIfc .i4] } ∧
    Runs 2 { s with drv.ifc := true, pc := [.sendIfc .i3] } ({ s with drv.ifc := false }.returned .ok)

/-- `SEND_GROUP_TRIGGER` with nobody else on the bus (R210, R211, R212): every entry with a legal address is addressed and
triggered, in order, every other entry causes no traffic, the list runs to its end, and the result is `InvalidAddress` when
some entry had one. -/
def Obligations.GroupTriggerCompletes : Prop :=
  ∀ (s : State) (list : List Target), s.pc = [] → s.talkerOk → s.silent → s.cfg.role = .controller →
    let good : List Target := list.filter fun x =>
      decide (1 ≤ x.pad.toNat ∧ x.pad.toNat ≤ 30 ∧ (x.useSad = true → x.sad.toNat ≤ 30))
    ∃ t k, exec (.sendGroupTrigger list) s = .next t ∧
      Executes k t
        ((if good = [] then s else { s.afterSend with drv.atn := false }).returned
          (if good = list then .ok else .err .invalidAddress))
        (talkedCommands (good.flatMap fun x =>
          [0x3F#8, 0x40#8, 0x20#8 + x.pad] ++ (if x.useSad then [0x60#8 + x.sad] else []) ++ [0x08#8]))

/-! ### Device mode -/

/-- What each command does to the device (R242 to R248): the addressing commands, device clear, serial-poll enable, the
observed commands, and those that change nothing.  Nothing else changes.  `dev_clear()` is three lines: `DCL`, and `SDC`
while listening, run the first, and the position is at the second.  That each line is one step is log entry 7. -/
def Obligations.CommandTransitions : Prop :=
  (∀ (s : State) (a : Byte),
    exec (.mla a) s =
      .next (if a = s.cfg.myPad then { s with dev.listening := true, dev.talking := false } else s) ∧
    exec (.mta a) s =
      .next (if a = s.cfg.myPad then { s with dev.talking := true, dev.listening := false }
             else { s with dev.talking := false }) ∧
    exec .unl s = .next { s with dev.listening := false } ∧
    exec .unt s = .next { s with dev.talking := false }) ∧
  (∀ s : State,
    let flags : State :=
      { s with dev.listening := false, dev.talking := false, dev.spArmed := false, pc := .devClear .e2 :: s.pc }
    let cleared : State :=
      { s with dev := { listening := false, talking := false, spArmed := false, status := 0x00#8 }, drv.srq := false }
    exec .dcl s = .next flags ∧
    exec .sdc s = .next (if s.dev.listening then flags else s) ∧
    (s.inbox = [] → ∃ k, Executes k flags cleared []) ∧
    (∀ rest, s.pc = .devClear .e2 :: rest →
      mainStep s = .next { s with dev.status := 0x00#8, pc := .devClear .e3 :: rest }) ∧
    (∀ rest, s.pc = .devClear .e3 :: rest → mainStep s = .next { s with drv.srq := false, pc := rest }) ∧
    exec .spe s = .next { s with dev.spArmed := true } ∧
    exec .spd s = .next { s with dev.spArmed := false }) ∧
  (∀ (s : State) (a c : Byte),
    exec .gtl s = .next (if s.dev.listening then { s with out.devEvent := s.out.devEvent ++ [DevEvent.gtl] } else s) ∧
    exec .get s = .next (if s.dev.listening then { s with out.devEvent := s.out.devEvent ++ [DevEvent.get] } else s) ∧
    exec .llo s = .next (if s.dev.listening then { s with out.devEvent := s.out.devEvent ++ [DevEvent.llo] } else s) ∧
    exec (.msa a) s = .next s ∧
    exec (.other c) s = .next s)

/-- A device cycle that samples IFC asserted (R251, R252, R259): every flag false, `status` 0, SRQ released, whatever the
state before, and nothing else changes.  The lines of `ifc_reset()` are log entry 7. -/
def Obligations.InterfaceClearResetsDevice : Prop :=
  ∀ s : State, s.pc = [] → s.cfg.role = .device → s.cfg.listenOnly = false → s.bus.ifc = true →
    exec .deviceCycle s = .next { s with pc := [.devClear .e1, .deviceCycle .v5] } ∧
    (s.inbox = [] →
      ∃ k, Executes k { s with pc := [.devClear .e1, .deviceCycle .v5] }
        ({ s with dev := { listening := false, talking := false, spArmed := false, status := 0x00#8 },
                  drv.srq := false }.returned .done) [])

/-- A device cycle under ATN takes one byte from the controller, with EOI or without, decodes it once, applies it, and
returns (R240, R223, R241, R245).  When no byte comes in `timeout_ms + 1` ticks it returns all the same, and the timeout has
changed no FSM state (R240, R162, R166). -/
def Obligations.DeviceCycleAppliesCommand : Prop :=
  (∀ (s : State) (b : Byte) (eoi : Bool) (q : List Item), s.pc = [] → s.cfg.role = .device → s.cfg.listenOnly = false →
    s.bus.ifc = false → s.rem.atn = true → s.noTalker → s.inbox = passes 1 ++ talkerByte b eoi 5 ++ q →
    let cmd := decodeCommand s.par.maskDio8 b
    ∃ t k u, exec .deviceCycle s = .next t ∧ Executes k t u [] ∧
      exec cmd.toInstr
        { { s with inbox := q }.afterReceive b eoi with pc := [.deviceCycle .v5], ret := .okByteEoi b eoi } = .next u ∧
      (q = [] → ∃ j, Executes j u
        ((if cmd = .dcl ∨ (cmd = .sdc ∧ s.dev.listening = true) then
            { u with dev := { listening := false, talking := false, spArmed := false, status := 0x00#8 }, drv.srq := false }
          else u).returned .done) [])) ∧
  ∀ (s : State) (q : List Item), s.pc = [] → s.cfg.role = .device → s.cfg.listenOnly = false →
    s.bus.ifc = false → s.rem.atn = true → s.rem.dav = false → s.cfg.timeoutMs.toNat ≤ 3000 →
    s.inbox = passes 6 ++ ticks (s.cfg.timeoutMs.toNat + 1) ++ passes 5 ++ q →
    ∃ t k, exec .deviceCycle s = .next t ∧
      Executes k t
        (({ s with inbox := q, hs.xcvr := .listen, hs.tmoCnt := s.cfg.timeoutMs + 1#16, hs.tickEn := false,
                   drv.dav := false, drv.eoi := false, drv.dio := 0x00#8, drv.ndac := true,
                   drv.nrfd := true }).returned .done) []

/-- The serial-poll reply (R249, R254): a device that is talking and armed puts exactly one byte on the bus, its status
byte without EOI, and is disarmed with status 0 and SRQ released.  A later cycle, not armed, sends nothing (see
`DeviceCycleQuiet`).  Whatever `SEND_BYTE` returned, the reply ends in the same way, so a reply that fails on contention is
one attempt too. -/
def Obligations.SerialPollReplyOnce : Prop :=
  (∀ (s : State) (rest : List Frame), s.pc = .deviceCycle .v3Ret :: rest → s.inbox = [] →
    ∃ k, Executes k s ({ s with dev.status := 0x00#8, dev.spArmed := false, drv.srq := false }.handed .done rest) []) ∧
  (∀ s : State, s.pc = [] → s.inbox = [] → s.cfg.role = .device → s.cfg.listenOnly = false → s.dev.talking = true →
    s.dev.spArmed = true → s.bus.ifc = false → s.bus.atn = false → s.rem.nrfd = true → s.rem.ndac = true →
    ∃ t k, exec .deviceCycle s = .next t ∧
      Executes k t
        ({ s with hs.xcvr := .talk, drv.nrfd := false, drv.ndac := false, drv.srq := false, dev.status := 0x00#8,
                  dev.spArmed := false }.returned .done) []) ∧
  ∀ s : State, s.pc = [] → s.talkerOk → s.drivesConsistent → s.silent → s.cfg.role = .device →
    s.cfg.listenOnly = false → s.dev.talking = true → s.dev.spArmed = true →
    ∃ t k, exec .deviceCycle s = .next t ∧
      Executes k t
        ({ s.afterSend with dev.status := 0x00#8, dev.spArmed := false, drv.srq := false }.returned .done)
        [⟨s.dev.status, false, false⟩]

/-- A device cycle on a quiet bus that is not about to answer a poll does nothing and returns (R240). -/
def Obligations.DeviceCycleQuiet : Prop :=
  ∀ s : State, s.pc = [] → s.talkerOk → s.drivesConsistent → s.silent → s.cfg.role = .device →
    s.cfg.listenOnly = false → ¬ (s.dev.talking = true ∧ s.dev.spArmed = true) →
    ∃ t k, exec .deviceCycle s = .next t ∧ Executes k t (s.returned .done) []

/-- The data drain (R250): a listening device that samples DAV asserted forwards the byte that stands on the bus with EOI,
then the EOT byte when enabled. -/
def Obligations.DeviceDrainsMessage : Prop :=
  ∀ (s : State) (q : List Item), s.pc = [] → s.cfg.role = .device → s.cfg.listenOnly = false →
    s.dev.listening = true → s.addressedOnce → s.bus.ifc = false → s.bus.atn = false →
    s.rem.dav = true → s.rem.eoi = true → s.inbox = passes 3 ++ talkerWaiting 8 ++ q →
    ∃ t k, exec .deviceCycle s = .next t ∧
      Executes k t
        (({ s with inbox := q, rem.dav := false, rem.eoi := false, rem.dio := 0x00#8,
                   out.linkTx := s.out.linkTx ++ [s.rem.dio] ++ s.eotBytes }.afterReceive s.rem.dio true).returned
          .done) []

/-- The device is never addressed to listen and to talk at once (R253). -/
def Obligations.NeverListensAndTalks : Prop :=
  ∀ s t, s.addressedOnce → step s = .next t → t.addressedOnce

/-- The mode and status requests (R255, R256, R257, R258), whatever the value before; nothing else changes.  `SET_ROLE` and
`SET_LISTEN_ONLY` write their configuration register first, and their other lines follow one by one; that each line is one step is
log entry 7. -/
def Obligations.ModeAndStatusRequests : Prop :=
  ∀ s : State, s.pc = [] →
    (∀ r, exec (.setRole r) s = .next { s with cfg.role := r, pc := [.setRole r .t2] }) ∧
    (∀ on, exec (.setListenOnly on) s = .next { s with cfg.listenOnly := on, pc := [.setListenOnly on .n2] }) ∧
    (s.inbox = [] → ∃ k, Executes k { s with cfg.role := .controller, pc := [.setRole .controller .t2] }
      ({ s with cfg.role := .controller,
                dev := { listening := false, talking := false, spArmed := false, status := 0x00#8 },
                hs.xcvr := .talk,
                drv := { atn := false, ifc := false, srq := false, dav := false, eoi := false, dio := 0x00#8,
                         nrfd := false, ndac := false, ren := true },
                out.persistRequest := s.out.persistRequest ++ [FieldName.role] }.returned .ok) []) ∧
    (s.inbox = [] → ∃ k, Executes k { s with cfg.role := .device, pc := [.setRole .device .t2] }
      ({ s with cfg.role := .device,
                dev := { listening := false, talking := false, spArmed := false, status := 0x00#8 },
                hs.xcvr := .listen,
                drv := { atn := false, ifc := false, srq := false, dav := false, eoi := false, dio := 0x00#8,
                         nrfd := false, ndac := true, ren := false },
                out.persistRequest := s.out.persistRequest ++ [FieldName.role] }.returned .ok) []) ∧
    (s.inbox = [] → ∀ on, ∃ k, Executes k { s with cfg.listenOnly := on, pc := [.setListenOnly on .n2] }
      ((if s.cfg.role = Role.device then
          { s with cfg.listenOnly := on,
                   dev := { listening := false, talking := false, spArmed := false, status := 0x00#8 },
                   hs.xcvr := .listen, drv.srq := false, drv.dav := false, drv.eoi := false, drv.dio := 0x00#8,
                   drv.ndac := true, drv.nrfd := false,
                   out.persistRequest := s.out.persistRequest ++ [FieldName.listenOnly] }
        else
          { s with cfg.listenOnly := on,
                   dev := { listening := false, talking := false, spArmed := false, status := 0x00#8 },
                   drv.srq := false, out.persistRequest := s.out.persistRequest ++ [FieldName.listenOnly] }).returned .ok)
      []) ∧
    (∀ v, exec (.setStatus v) s = .next ({ s with dev.status := v }.returned .ok)) ∧
    (s.cfg.role = .device → ∀ on, exec (.setSrq on) s = .next ({ s with drv.srq := on }.returned .ok)) ∧
    (s.cfg.role = .controller → ∀ on, exec (.setSrq on) s = .next (s.returned (.err .roleViolation)))

/-- `SET_CONFIG` (R51): one field is written and reported; a value out of range changes no field and ends in
`InvalidConfig`. -/
def Obligations.SetConfigRule : Prop :=
  ∀ s : State, s.pc = [] →
    (∀ v : Byte, exec (.setConfig (.myPad v)) s = .next
      (if 1 ≤ v.toNat ∧ v.toNat ≤ 30 then
         { s with cfg.myPad := v, out.persistRequest := s.out.persistRequest ++ [FieldName.myPad] }.returned .ok
       else s.returned (.err .invalidConfig))) ∧
    (∀ v : Byte, exec (.setConfig (.mySad v)) s = .next
      (if v.toNat ≤ 30 then
         { s with cfg.mySad := v, out.persistRequest := s.out.persistRequest ++ [FieldName.mySad] }.returned .ok
       else s.returned (.err .invalidConfig))) ∧
    (∀ v : Bool, exec (.setConfig (.sadValid v)) s = .next
      ({ s with cfg.sadValid := v, out.persistRequest := s.out.persistRequest ++ [FieldName.sadValid] }.returned .ok)) ∧
    (∀ v : Word16, exec (.setConfig (.timeoutMs v)) s = .next
      (if v.toNat ≤ 3000 then
         { s with cfg.timeoutMs := v, out.persistRequest := s.out.persistRequest ++ [FieldName.timeoutMs] }.returned .ok
       else s.returned (.err .invalidConfig))) ∧
    (∀ v : Bool, exec (.setConfig (.eoiUse v)) s = .next
      ({ s with cfg.eoiUse := v, out.persistRequest := s.out.persistRequest ++ [FieldName.eoiUse] }.returned .ok)) ∧
    (∀ v : Byte, exec (.setConfig (.eosMode v)) s = .next
      (if v.toNat ≤ 3 then
         { s with cfg.eosMode := BitVec.ofNat 2 v.toNat,
                  out.persistRequest := s.out.persistRequest ++ [FieldName.eosMode] }.returned .ok
       else s.returned (.err .invalidConfig))) ∧
    (∀ v : Bool, exec (.setConfig (.eotEnable v)) s = .next
      ({ s with cfg.eotEnable := v, out.persistRequest := s.out.persistRequest ++ [FieldName.eotEnable] }.returned .ok)) ∧
    (∀ v : Byte, exec (.setConfig (.eotChar v)) s = .next
      ({ s with cfg.eotChar := v, out.persistRequest := s.out.persistRequest ++ [FieldName.eotChar] }.returned .ok)) ∧
    (∀ v : Bool, exec (.setConfig (.autoRead v)) s = .next
      ({ s with cfg.autoRead := v, out.persistRequest := s.out.persistRequest ++ [FieldName.autoRead] }.returned .ok))

/-! ### Listen-only mode -/

/-- A listen-only cycle under ATN takes one byte, decodes it once and logs it: a name where it is recognised, else the byte
as received (R270, R271, R224); when no byte comes in `timeout_ms + 1` ticks it logs nothing (R270, R162, R166); on a quiet
bus it only reapplies the idle acceptor drives. -/
def Obligations.ListenOnlyLogsCommand : Prop :=
  (∀ b c, logEntry b (.other c) = .raw b) ∧
  (∀ b, logEntry b .gtl = .named "GTL".toList ∧ logEntry b .sdc = .named "SDC".toList ∧
    logEntry b .get = .named "GET".toList ∧ logEntry b .llo = .named "LLO".toList ∧
    logEntry b .dcl = .named "DCL".toList ∧ logEntry b .spe = .named "SPE".toList ∧
    logEntry b .spd = .named "SPD".toList ∧ logEntry b .unl = .named "UNL".toList ∧
    logEntry b .unt = .named "UNT".toList) ∧
  (∀ b a : Byte, logEntry b (.mla a) = .named ("MLA ".toList ++ Nat.toDigits 10 a.toNat) ∧
    logEntry b (.mta a) = .named ("MTA ".toList ++ Nat.toDigits 10 a.toNat) ∧
    logEntry b (.msa a) = .named ("MSA ".toList ++ Nat.toDigits 10 a.toNat)) ∧
  ∀ (s : State), s.pc = [] → s.cfg.role = .device → s.cfg.listenOnly = true →
    (∀ (b : Byte) (eoi : Bool) (q : List Item), s.rem.atn = true → s.noTalker →
      s.inbox = passes 3 ++ talkerByte b eoi 5 ++ q →
      ∃ t k, exec .listenOnlyCycle s = .next t ∧
        Executes k t
          ((({ s with inbox := q, out.loLog := s.out.loLog ++ [logEntry b (decodeCommand s.par.maskDio8 b)] }).afterReceive
            b eoi).returned .done) []) ∧
    (∀ q : List Item, s.rem.atn = true → s.rem.dav = false → s.cfg.timeoutMs.toNat ≤ 3000 →
      s.inbox = passes 8 ++ ticks (s.cfg.timeoutMs.toNat + 1) ++ passes 4 ++ q →
      ∃ t k, exec .listenOnlyCycle s = .next t ∧
        Executes k t
          (({ s with inbox := q, hs.xcvr := .listen, hs.tmoCnt := s.cfg.timeoutMs + 1#16, hs.tickEn := false,
                     drv.dav := false, drv.eoi := false, drv.dio := 0x00#8, drv.ndac := true,
                     drv.nrfd := true }).returned .done) []) ∧
    (s.silent → s.drv.atn = false →
      ∃ t k, exec .listenOnlyCycle s = .next t ∧
        Executes k t
          ({ s with hs.xcvr := .listen, drv.dav := false, drv.eoi := false, drv.dio := 0x00#8, drv.ndac := true,
                    drv.nrfd := false }.returned .done) [])

/-- The listen-only drain (R272): DAV sampled asserted with ATN released forwards the byte that stands on the bus with EOI,
whatever any addressing says, then the EOT byte when enabled. -/
def Obligations.ListenOnlyDrainsMessage : Prop :=
  ∀ (s : State) (q : List Item), s.pc = [] → s.cfg.role = .device → s.cfg.listenOnly = true →
    s.bus.atn = false → s.rem.dav = true → s.rem.eoi = true → s.inbox = passes 4 ++ talkerWaiting 8 ++ q →
    ∃ t k, exec .listenOnlyCycle s = .next t ∧
      Executes k t
        (({ s with inbox := q, rem.dav := false, rem.eoi := false, rem.dio := 0x00#8,
                   out.linkTx := s.out.linkTx ++ [s.rem.dio] ++ s.eotBytes }.afterReceive s.rem.dio true).returned
          .done) []

/-- In listen-only mode the block's own cycles write no addressing state, emit no `dev_event` (R273), assert none of DAV,
EOI, ATN, IFC, SRQ and REN and drive no data (R275), step by step from one main cycle to the next. -/
def Obligations.ListenOnlyNeverTransmits : Prop :=
  ∀ s t, s.cfg.role = .device → s.cfg.listenOnly = true → s.pc.all Frame.onlyListens = true →
    mainStep s = .next t →
    t.pc.all Frame.onlyListens = true ∧ t.cfg = s.cfg ∧ t.dev = s.dev ∧ t.out.devEvent = s.out.devEvent ∧
      s.drv.transmitsNothing t.drv

/-! ### The main cycle -/

/-- `MAIN_CYCLE` in Controller role with nobody else on the bus (R280, R281, R282, R284): it takes the oldest record; with
none it returns; a command record goes to `dispatch` whole; a data record goes out as `SEND_DATA` would send it, its
result dropped (R288). -/
def Obligations.MainCycleController : Prop :=
  ∀ s : State, s.pc = [] → s.talkerOk → s.silent → s.cfg.role = .controller →
    (s.rx.oldest = none → ∃ t k, exec .mainCycle s = .next t ∧ Executes k t (s.returned .done) []) ∧
    (∀ x, s.rx.oldest = some x → x.flag = 0x01#8 →
      ∃ t k, exec .mainCycle s = .next t ∧
        Executes k t
          ({ s with rx.rd := s.rx.rd + 2#8 + x.len,
                    out.dispatch := s.out.dispatch ++ [(0x01#8, x.payload)] }.returned .done) []) ∧
    (∀ x, s.rx.oldest = some x → x.flag ≠ 0x01#8 →
      ∃ t k u, exec .mainCycle s = .next t ∧
        Executes k t u (talkedMessage s.cfg.eoiUse s.drv.atn (x.payload ++ eosBytes s.cfg.eosMode)) ∧
        u = ((if x.payload ++ eosBytes s.cfg.eosMode = [] then { s with rx.rd := s.rx.rd + 2#8 + x.len }
              else { s with rx.rd := s.rx.rd + 2#8 + x.len }.afterSend).returned .done))

/-- Records in Device role.  The cycle takes the oldest record, or none (R280, R132).  A command record goes to `dispatch`
whole, and nothing else happens to it (R281).  A data record (R283): while talking and not listen-only its bytes go out one
by one with EOI on the last when `eoi_use`, and no EOS; otherwise it is dropped without bus activity.  Then the bus
processing of line `k3` runs, record or none (R284). -/
def Obligations.MainCycleDeviceRecord : Prop :=
  (∀ s : State, s.pc = [] → s.cfg.role = .device →
    (s.rx.oldest = none → exec .mainCycle s = .next { s with pc := [.mainCycle (.k2 none)] }) ∧
    (∀ x, s.rx.oldest = some x →
      exec .mainCycle s = .next { s with rx.rd := s.rx.rd + 2#8 + x.len, pc := [.mainCycle (.k2 (some x))] })) ∧
  (∀ (s : State) (rest : List Frame), s.cfg.role = .device →
    (s.pc = .mainCycle (.k2 none) :: rest → mainStep s = .next { s with pc := .mainCycle .k3 :: rest }) ∧
    (∀ x : Record, s.pc = .mainCycle (.k2 (some x)) :: rest → x.flag = 0x01#8 →
      mainStep s = .next
        { s with out.dispatch := s.out.dispatch ++ [(0x01#8, x.payload)], pc := .mainCycle .k3 :: rest })) ∧
  ∀ (s : State) (x : Record), s.pc = [.mainCycle (.k2 (some x))] → s.talkerOk → s.silent → s.cfg.role = .device →
    x.flag ≠ 0x01#8 →
    (s.dev.talking = true → s.cfg.listenOnly = false →
      ∃ k, Executes k s
        { (if x.payload = [] then s else { s.afterSend with ret := .ok }) with pc := [.mainCycle .k3] }
        (talkedMessage s.cfg.eoiUse s.drv.atn x.payload)) ∧
    (s.dev.talking = false ∨ s.cfg.listenOnly = true → mainStep s = .next { s with pc := [.mainCycle .k3] })

/-- Bus processing (R284, R276): in Device role line `k3` runs exactly one of the two cycles, selected by `listen_only`; in
Controller role neither, and the cycle returns. -/
def Obligations.MainCycleRunsOneCycle : Prop :=
  ∀ (s : State) (rest : List Frame), s.pc = .mainCycle .k3 :: rest →
    (s.cfg.role = .device → s.cfg.listenOnly = false →
      mainStep s = .next { s with pc := .deviceCycle .v1 :: .mainCycle .k3Ret :: rest }) ∧
    (s.cfg.role = .device → s.cfg.listenOnly = true →
      mainStep s = .next { s with pc := .listenOnlyCycle .l1 :: .mainCycle .k3Ret :: rest }) ∧
    (s.cfg.role = .controller → mainStep s = .next (s.finish .done rest))

/-! ### Events, reset and boot -/

/-- `TICK` (R306) and `BUS_DRIVE` (R307), at any step: a tick counts, saturating at 0xFFFF, only while `tick_en`; a bus
move sets exactly the lines it names, and the bus is the wired-OR of both drives (R36).  The electrical view of the bus and
of the transceiver: the data lines are active-low (R80), TE and PE follow `xcvr` (R86), SC and DC follow `role` (R37, R87);
the spec marks R36, R86 and R87 as general knowledge or its own decision. -/
def Obligations.TickAndBusDrive : Prop :=
  (∀ s : State, exec .tick s = .next
    (if s.hs.tickEn then { s with hs.tmoCnt := BitVec.ofNat 16 (min (s.hs.tmoCnt.toNat + 1) 0xFFFF) } else s)) ∧
  (∀ (s : State) (d : BusDrive), exec (.busDrive d) s = .next
    { s with rem :=
      { atn := d.atn.getD s.rem.atn, dav := d.dav.getD s.rem.dav, eoi := d.eoi.getD s.rem.eoi,
        nrfd := d.nrfd.getD s.rem.nrfd, ndac := d.ndac.getD s.rem.ndac, ifc := d.ifc.getD s.rem.ifc,
        srq := d.srq.getD s.rem.srq, ren := d.ren.getD s.rem.ren, dio := d.dio.getD s.rem.dio } }) ∧
  (∀ s : State, s.bus =
    { atn := s.drv.atn || s.rem.atn, dav := s.drv.dav || s.rem.dav, eoi := s.drv.eoi || s.rem.eoi,
      nrfd := s.drv.nrfd || s.rem.nrfd, ndac := s.drv.ndac || s.rem.ndac, ifc := s.drv.ifc || s.rem.ifc,
      srq := s.drv.srq || s.rem.srq, ren := s.drv.ren || s.rem.ren, dio := s.drv.dio ||| s.rem.dio }) ∧
  (∀ (s : State) (asserted : Bool), s.dioLevels = ~~~(s.drv.dio ||| s.rem.dio) ∧ levelOf asserted = !asserted) ∧
  (∀ s : State,
    (s.hs.xcvr = .talk → s.te = true ∧ s.pe = true) ∧ (s.hs.xcvr = .listen → s.te = false ∧ s.pe = false) ∧
    (s.cfg.role = .controller → s.sc = true ∧ s.dc = false) ∧ (s.cfg.role = .device → s.sc = false ∧ s.dc = true))

/-- `RESET` at any step (R340, R341): every field of R53 at its reset value, whatever runs abandoned, the configuration, the
port histories and the environment's drives kept; the ring's contents are any canonical memory. -/
def Obligations.ResetRule : Prop :=
  ∀ s : State, ∃ t, exec .reset s = .next t ∧
    Memory.wf t.rx.ring = true ∧
    t = { s with
      rx := { ring := t.rx.ring, rd := 0x00#8, head := 0x00#8, len := 0x00#8, cmd := false, esc := false,
              lead := .start, mode := .normal, enabled := false },
      hs := { tmoCnt := 0#16, tickEn := false, xcvr := .listen, latData := 0x00#8, latEoi := false },
      drv := { atn := false, dav := false, eoi := false, nrfd := false, ndac := false, ifc := false, srq := false,
               ren := false, dio := 0x00#8 },
      dev := { listening := false, talking := false, spArmed := false, status := 0x00#8 },
      pc := [.boot .b1], ret := t.ret, draws := t.draws }

/-- `BOOT` (R342, R343, R344): the configuration of the store, a missing timeout as 1000 ms, then the role's idle drives,
then link receive, then `Idle`, with no result and no persist request; a store out of range refuses the launch, and so does
an `RX_BURST_MAX` of 0 (R7; that it is refused here is log entry 4). -/
def Obligations.BootRule : Prop :=
  ∀ s : State, s.pc = [.boot .b1] → s.inbox = [] →
    let c := s.store
    let ms : Word16 := c.timeoutMs.getD 1000#16
    let legal : Prop := ms.toNat ≤ 3000 ∧ 1 ≤ c.myPad.toNat ∧ c.myPad.toNat ≤ 30 ∧ c.mySad.toNat ≤ 30 ∧
      c.eosMode.toNat ≤ 3 ∧ 1 ≤ s.par.rxBurstMax
    (legal →
      Runs 4 s { s with
        cfg := { role := c.role, listenOnly := c.listenOnly, myPad := c.myPad, mySad := c.mySad,
                 sadValid := c.sadValid, timeoutMs := ms, eoiUse := c.eoiUse,
                 eosMode := BitVec.ofNat 2 c.eosMode.toNat, eotEnable := c.eotEnable, eotChar := c.eotChar,
                 autoRead := c.autoRead },
        hs.xcvr := (if c.role = .controller then .talk else .listen),
        drv := { atn := false, dav := false, eoi := false, nrfd := false, ndac := decide (c.role = .device),
                 ifc := false, srq := false, ren := decide (c.role = .controller), dio := 0x00#8 },
        rx.enabled := true, pc := [] }) ∧
    (¬ legal → step s = .refused .launchRefused)

/-! ### Invariants of the whole machine -/

/-- Tick discipline (R351, R32): `tick_en` is true exactly while a `WAIT` polls, so it is false on every exit of a `WAIT`,
outside a `WAIT` and after a `RESET`.  Operations nest only as their pseudocode calls one another (R21). -/
def Obligations.TickDiscipline : Prop :=
  ∀ s t, nested s.pc = true → step s = .next t → nested t.pc = true ∧ (s.tickDisciplined → t.tickDisciplined)

/-- Drive consistency (R88): what the transceiver direction and the role do not let the block drive, it does not drive; for
the role, outside the lines of a `SET_ROLE`, which writes `role` first and the lines after it (R255, log entry 7).  That the
talker lines are released outside `SEND_BYTE` is the invariant of `HandshakeLinesInvariant`. -/
def Obligations.DrivesStayConsistent : Prop :=
  ∀ s t, nested s.pc = true → s.talkerOk → s.directionsOk → s.drivesConsistent → step s = .next t →
    t.directionsOk ∧ t.drivesConsistent

/-- The block asserts ATN exactly inside `SEND_COMMAND` and IFC exactly inside `SEND_IFC` (R181, R208). -/
def Obligations.AtnAndIfcBrackets : Prop :=
  ∀ s t, nested s.pc = true → s.controlLinesOk → step s = .next t → t.controlLinesOk

/-- In Controller role the device flags are held false (R311), but between the first and the second line of a `SET_ROLE`
(R255, log entry 7). -/
def Obligations.ControllerHoldsFlagsFalse : Prop :=
  ∀ s t, nested s.pc = true → s.flagsHeld → step s = .next t → t.flagsHeld

/-- The configuration registers stay in their ranges (R45, R46, R51, R344). -/
def Obligations.ConfigStaysInRange : Prop :=
  ∀ s t, s.cfg.inRange → step s = .next t → t.cfg.inRange

/-- The port histories only ever grow, across `RESET` too (R52); that the results do is log entry 9. -/
def Obligations.PortHistoriesGrow : Prop :=
  ∀ s t, step s = .next t → s.out.grows t.out

/-- Each piece of state has its writers (R22, R23, R24, R36, R41, R43, R44, R51, R72): what a step changes names the move
it made. -/
def Obligations.OnlyTheirWritersWrite : Prop :=
  ∀ s t, step s = .next t →
    (t.rx.head ≠ s.rx.head ∨ t.rx.ring ≠ s.rx.ring → (∃ bs, s.takes (.rxBurst bs)) ∨ s.takes .reset) ∧
    (t.rx.rd ≠ s.rx.rd → s.takes .popRecord ∨ s.takes .mainCycle ∨ s.takes .reset ∨
      ((s.pc = [] ∨ ∃ rest, s.pc = .mainCycle .k1 :: rest) ∧ ∀ i, ¬ s.takes i)) ∧
    (t.cfg.role ≠ s.cfg.role → (∃ r, s.takes (.setRole r)) ∨ ∃ rest, s.pc = .boot .b1 :: rest) ∧
    (t.cfg.listenOnly ≠ s.cfg.listenOnly → (∃ b, s.takes (.setListenOnly b)) ∨ ∃ rest, s.pc = .boot .b1 :: rest) ∧
    (t.cfg ≠ s.cfg → (∃ r, s.takes (.setRole r)) ∨ (∃ b, s.takes (.setListenOnly b)) ∨
      (∃ w, s.takes (.setConfig w)) ∨ ∃ rest, s.pc = .boot .b1 :: rest) ∧
    (t.dev.status ≠ s.dev.status → t.dev.status ≠ 0x00#8 → ∃ v, s.takes (.setStatus v)) ∧
    (t.rem ≠ s.rem → ∃ d, s.takes (.busDrive d)) ∧
    t.store = s.store ∧ t.par = s.par

/-- Every invariant above holds at `State.reset`, whose values are those of R53 and of log entries 4 and 5. -/
def Obligations.ResetStateMeetsInvariants : Prop :=
  State.reset.receiverOk ∧ State.reset.addressedOnce ∧ nested State.reset.pc = true ∧ State.reset.tickDisciplined ∧
    State.reset.directionsOk ∧ State.reset.drivesConsistent ∧ State.reset.talkerOk ∧ State.reset.acceptorOk ∧
    State.reset.controlLinesOk ∧ State.reset.flagsHeld ∧ State.reset.cfg.inRange
end

