-- ==== Sys2Proof/Laws/State.lean ====
section
/-!
SUPPORT. What each named update of State.lean's fields does, one lemma per field, and the inversion lemmas of the shared
operations of Ops.lean (`accept`, `finish`).
-/

namespace Sys2Proof.Machine

/-! ### `goto` -/

@[simp] theorem State.goto_rx (s : State) (fs : List Frame) : (s.goto fs).rx = s.rx := rfl
@[simp] theorem State.goto_hs (s : State) (fs : List Frame) : (s.goto fs).hs = s.hs := rfl
@[simp] theorem State.goto_drv (s : State) (fs : List Frame) : (s.goto fs).drv = s.drv := rfl
@[simp] theorem State.goto_dev (s : State) (fs : List Frame) : (s.goto fs).dev = s.dev := rfl
@[simp] theorem State.goto_cfg (s : State) (fs : List Frame) : (s.goto fs).cfg = s.cfg := rfl
@[simp] theorem State.goto_out (s : State) (fs : List Frame) : (s.goto fs).out = s.out := rfl
@[simp] theorem State.goto_pc (s : State) (fs : List Frame) : (s.goto fs).pc = fs := rfl
@[simp] theorem State.goto_ret (s : State) (fs : List Frame) : (s.goto fs).ret = s.ret := rfl
@[simp] theorem State.goto_rem (s : State) (fs : List Frame) : (s.goto fs).rem = s.rem := rfl
@[simp] theorem State.goto_inbox (s : State) (fs : List Frame) : (s.goto fs).inbox = s.inbox := rfl
@[simp] theorem State.goto_store (s : State) (fs : List Frame) : (s.goto fs).store = s.store := rfl
@[simp] theorem State.goto_par (s : State) (fs : List Frame) : (s.goto fs).par = s.par := rfl
@[simp] theorem State.goto_draws (s : State) (fs : List Frame) : (s.goto fs).draws = s.draws := rfl

/-! ### `callWait` -/

@[simp] theorem State.callWait_rx (s : State) (c : WaitCond) (fs : List Frame) : (s.callWait c fs).rx = s.rx := rfl
@[simp] theorem State.callWait_hs (s : State) (c : WaitCond) (fs : List Frame) : (s.callWait c fs).hs = s.hs := rfl
@[simp] theorem State.callWait_drv (s : State) (c : WaitCond) (fs : List Frame) : (s.callWait c fs).drv = s.drv := rfl
@[simp] theorem State.callWait_dev (s : State) (c : WaitCond) (fs : List Frame) : (s.callWait c fs).dev = s.dev := rfl
@[simp] theorem State.callWait_cfg (s : State) (c : WaitCond) (fs : List Frame) : (s.callWait c fs).cfg = s.cfg := rfl
@[simp] theorem State.callWait_out (s : State) (c : WaitCond) (fs : List Frame) : (s.callWait c fs).out = s.out := rfl
@[simp] theorem State.callWait_pc (s : State) (c : WaitCond) (fs : List Frame) : (s.callWait c fs).pc = .wait c .w1 :: fs := rfl
@[simp] theorem State.callWait_ret (s : State) (c : WaitCond) (fs : List Frame) : (s.callWait c fs).ret = s.ret := rfl
@[simp] theorem State.callWait_rem (s : State) (c : WaitCond) (fs : List Frame) : (s.callWait c fs).rem = s.rem := rfl
@[simp] theorem State.callWait_inbox (s : State) (c : WaitCond) (fs : List Frame) : (s.callWait c fs).inbox = s.inbox := rfl
@[simp] theorem State.callWait_store (s : State) (c : WaitCond) (fs : List Frame) : (s.callWait c fs).store = s.store := rfl
@[simp] theorem State.callWait_par (s : State) (c : WaitCond) (fs : List Frame) : (s.callWait c fs).par = s.par := rfl
@[simp] theorem State.callWait_draws (s : State) (c : WaitCond) (fs : List Frame) : (s.callWait c fs).draws = s.draws := rfl

/-! ### `talkConfig` -/

@[simp] theorem State.talkConfig_rx (s : State) : s.talkConfig.rx = s.rx := rfl
@[simp] theorem State.talkConfig_hs (s : State) : s.talkConfig.hs = { s.hs with xcvr := .talk } := rfl
@[simp] theorem State.talkConfig_drv (s : State) : s.talkConfig.drv = { s.drv with nrfd := false, ndac := false } := rfl
@[simp] theorem State.talkConfig_dev (s : State) : s.talkConfig.dev = s.dev := rfl
@[simp] theorem State.talkConfig_cfg (s : State) : s.talkConfig.cfg = s.cfg := rfl
@[simp] theorem State.talkConfig_out (s : State) : s.talkConfig.out = s.out := rfl
@[simp] theorem State.talkConfig_pc (s : State) : s.talkConfig.pc = s.pc := rfl
@[simp] theorem State.talkConfig_ret (s : State) : s.talkConfig.ret = s.ret := rfl
@[simp] theorem State.talkConfig_rem (s : State) : s.talkConfig.rem = s.rem := rfl
@[simp] theorem State.talkConfig_inbox (s : State) : s.talkConfig.inbox = s.inbox := rfl
@[simp] theorem State.talkConfig_store (s : State) : s.talkConfig.store = s.store := rfl
@[simp] theorem State.talkConfig_par (s : State) : s.talkConfig.par = s.par := rfl
@[simp] theorem State.talkConfig_draws (s : State) : s.talkConfig.draws = s.draws := rfl

/-! ### `listenConfig` -/

@[simp] theorem State.listenConfig_rx (s : State) : s.listenConfig.rx = s.rx := rfl
@[simp] theorem State.listenConfig_hs (s : State) : s.listenConfig.hs = { s.hs with xcvr := .listen } := rfl
@[simp] theorem State.listenConfig_drv (s : State) : s.listenConfig.drv = { s.drv with dav := false, eoi := false, dio := 0x00#8 } := rfl
@[simp] theorem State.listenConfig_dev (s : State) : s.listenConfig.dev = s.dev := rfl
@[simp] theorem State.listenConfig_cfg (s : State) : s.listenConfig.cfg = s.cfg := rfl
@[simp] theorem State.listenConfig_out (s : State) : s.listenConfig.out = s.out := rfl
@[simp] theorem State.listenConfig_pc (s : State) : s.listenConfig.pc = s.pc := rfl
@[simp] theorem State.listenConfig_ret (s : State) : s.listenConfig.ret = s.ret := rfl
@[simp] theorem State.listenConfig_rem (s : State) : s.listenConfig.rem = s.rem := rfl
@[simp] theorem State.listenConfig_inbox (s : State) : s.listenConfig.inbox = s.inbox := rfl
@[simp] theorem State.listenConfig_store (s : State) : s.listenConfig.store = s.store := rfl
@[simp] theorem State.listenConfig_par (s : State) : s.listenConfig.par = s.par := rfl
@[simp] theorem State.listenConfig_draws (s : State) : s.listenConfig.draws = s.draws := rfl

/-! ### `holdAcceptor` -/

@[simp] theorem State.holdAcceptor_rx (s : State) : s.holdAcceptor.rx = s.rx := rfl
@[simp] theorem State.holdAcceptor_hs (s : State) : s.holdAcceptor.hs = s.hs := rfl
@[simp] theorem State.holdAcceptor_drv (s : State) : s.holdAcceptor.drv = { s.drv with ndac := true, nrfd := false } := rfl
@[simp] theorem State.holdAcceptor_dev (s : State) : s.holdAcceptor.dev = s.dev := rfl
@[simp] theorem State.holdAcceptor_cfg (s : State) : s.holdAcceptor.cfg = s.cfg := rfl
@[simp] theorem State.holdAcceptor_out (s : State) : s.holdAcceptor.out = s.out := rfl
@[simp] theorem State.holdAcceptor_pc (s : State) : s.holdAcceptor.pc = s.pc := rfl
@[simp] theorem State.holdAcceptor_ret (s : State) : s.holdAcceptor.ret = s.ret := rfl
@[simp] theorem State.holdAcceptor_rem (s : State) : s.holdAcceptor.rem = s.rem := rfl
@[simp] theorem State.holdAcceptor_inbox (s : State) : s.holdAcceptor.inbox = s.inbox := rfl
@[simp] theorem State.holdAcceptor_store (s : State) : s.holdAcceptor.store = s.store := rfl
@[simp] theorem State.holdAcceptor_par (s : State) : s.holdAcceptor.par = s.par := rfl
@[simp] theorem State.holdAcceptor_draws (s : State) : s.holdAcceptor.draws = s.draws := rfl

/-! ### `releaseTalker` -/

@[simp] theorem State.releaseTalker_rx (s : State) : s.releaseTalker.rx = s.rx := rfl
@[simp] theorem State.releaseTalker_hs (s : State) : s.releaseTalker.hs = s.hs := rfl
@[simp] theorem State.releaseTalker_drv (s : State) : s.releaseTalker.drv = { s.drv with dav := false, eoi := false, dio := 0x00#8 } := rfl
@[simp] theorem State.releaseTalker_dev (s : State) : s.releaseTalker.dev = s.dev := rfl
@[simp] theorem State.releaseTalker_cfg (s : State) : s.releaseTalker.cfg = s.cfg := rfl
@[simp] theorem State.releaseTalker_out (s : State) : s.releaseTalker.out = s.out := rfl
@[simp] theorem State.releaseTalker_pc (s : State) : s.releaseTalker.pc = s.pc := rfl
@[simp] theorem State.releaseTalker_ret (s : State) : s.releaseTalker.ret = s.ret := rfl
@[simp] theorem State.releaseTalker_rem (s : State) : s.releaseTalker.rem = s.rem := rfl
@[simp] theorem State.releaseTalker_inbox (s : State) : s.releaseTalker.inbox = s.inbox := rfl
@[simp] theorem State.releaseTalker_store (s : State) : s.releaseTalker.store = s.store := rfl
@[simp] theorem State.releaseTalker_par (s : State) : s.releaseTalker.par = s.par := rfl
@[simp] theorem State.releaseTalker_draws (s : State) : s.releaseTalker.draws = s.draws := rfl

/-! ### `emitLink` -/

@[simp] theorem State.emitLink_rx (s : State) (b : Byte) : (s.emitLink b).rx = s.rx := rfl
@[simp] theorem State.emitLink_hs (s : State) (b : Byte) : (s.emitLink b).hs = s.hs := rfl
@[simp] theorem State.emitLink_drv (s : State) (b : Byte) : (s.emitLink b).drv = s.drv := rfl
@[simp] theorem State.emitLink_dev (s : State) (b : Byte) : (s.emitLink b).dev = s.dev := rfl
@[simp] theorem State.emitLink_cfg (s : State) (b : Byte) : (s.emitLink b).cfg = s.cfg := rfl
@[simp] theorem State.emitLink_out (s : State) (b : Byte) : (s.emitLink b).out = { s.out with linkTx := s.out.linkTx ++ [b] } := rfl
@[simp] theorem State.emitLink_pc (s : State) (b : Byte) : (s.emitLink b).pc = s.pc := rfl
@[simp] theorem State.emitLink_ret (s : State) (b : Byte) : (s.emitLink b).ret = s.ret := rfl
@[simp] theorem State.emitLink_rem (s : State) (b : Byte) : (s.emitLink b).rem = s.rem := rfl
@[simp] theorem State.emitLink_inbox (s : State) (b : Byte) : (s.emitLink b).inbox = s.inbox := rfl
@[simp] theorem State.emitLink_store (s : State) (b : Byte) : (s.emitLink b).store = s.store := rfl
@[simp] theorem State.emitLink_par (s : State) (b : Byte) : (s.emitLink b).par = s.par := rfl
@[simp] theorem State.emitLink_draws (s : State) (b : Byte) : (s.emitLink b).draws = s.draws := rfl

/-! ### `emitDispatch` -/

@[simp] theorem State.emitDispatch_rx (s : State) (f : Byte) (p : List Byte) : (s.emitDispatch f p).rx = s.rx := rfl
@[simp] theorem State.emitDispatch_hs (s : State) (f : Byte) (p : List Byte) : (s.emitDispatch f p).hs = s.hs := rfl
@[simp] theorem State.emitDispatch_drv (s : State) (f : Byte) (p : List Byte) : (s.emitDispatch f p).drv = s.drv := rfl
@[simp] theorem State.emitDispatch_dev (s : State) (f : Byte) (p : List Byte) : (s.emitDispatch f p).dev = s.dev := rfl
@[simp] theorem State.emitDispatch_cfg (s : State) (f : Byte) (p : List Byte) : (s.emitDispatch f p).cfg = s.cfg := rfl
@[simp] theorem State.emitDispatch_out (s : State) (f : Byte) (p : List Byte) : (s.emitDispatch f p).out = { s.out with dispatch := s.out.dispatch ++ [(f, p)] } := rfl
@[simp] theorem State.emitDispatch_pc (s : State) (f : Byte) (p : List Byte) : (s.emitDispatch f p).pc = s.pc := rfl
@[simp] theorem State.emitDispatch_ret (s : State) (f : Byte) (p : List Byte) : (s.emitDispatch f p).ret = s.ret := rfl
@[simp] theorem State.emitDispatch_rem (s : State) (f : Byte) (p : List Byte) : (s.emitDispatch f p).rem = s.rem := rfl
@[simp] theorem State.emitDispatch_inbox (s : State) (f : Byte) (p : List Byte) : (s.emitDispatch f p).inbox = s.inbox := rfl
@[simp] theorem State.emitDispatch_store (s : State) (f : Byte) (p : List Byte) : (s.emitDispatch f p).store = s.store := rfl
@[simp] theorem State.emitDispatch_par (s : State) (f : Byte) (p : List Byte) : (s.emitDispatch f p).par = s.par := rfl
@[simp] theorem State.emitDispatch_draws (s : State) (f : Byte) (p : List Byte) : (s.emitDispatch f p).draws = s.draws := rfl

/-! ### `emitDevEvent` -/

@[simp] theorem State.emitDevEvent_rx (s : State) (e : DevEvent) : (s.emitDevEvent e).rx = s.rx := rfl
@[simp] theorem State.emitDevEvent_hs (s : State) (e : DevEvent) : (s.emitDevEvent e).hs = s.hs := rfl
@[simp] theorem State.emitDevEvent_drv (s : State) (e : DevEvent) : (s.emitDevEvent e).drv = s.drv := rfl
@[simp] theorem State.emitDevEvent_dev (s : State) (e : DevEvent) : (s.emitDevEvent e).dev = s.dev := rfl
@[simp] theorem State.emitDevEvent_cfg (s : State) (e : DevEvent) : (s.emitDevEvent e).cfg = s.cfg := rfl
@[simp] theorem State.emitDevEvent_out (s : State) (e : DevEvent) : (s.emitDevEvent e).out = { s.out with devEvent := s.out.devEvent ++ [e] } := rfl
@[simp] theorem State.emitDevEvent_pc (s : State) (e : DevEvent) : (s.emitDevEvent e).pc = s.pc := rfl
@[simp] theorem State.emitDevEvent_ret (s : State) (e : DevEvent) : (s.emitDevEvent e).ret = s.ret := rfl
@[simp] theorem State.emitDevEvent_rem (s : State) (e : DevEvent) : (s.emitDevEvent e).rem = s.rem := rfl
@[simp] theorem State.emitDevEvent_inbox (s : State) (e : DevEvent) : (s.emitDevEvent e).inbox = s.inbox := rfl
@[simp] theorem State.emitDevEvent_store (s : State) (e : DevEvent) : (s.emitDevEvent e).store = s.store := rfl
@[simp] theorem State.emitDevEvent_par (s : State) (e : DevEvent) : (s.emitDevEvent e).par = s.par := rfl
@[simp] theorem State.emitDevEvent_draws (s : State) (e : DevEvent) : (s.emitDevEvent e).draws = s.draws := rfl

/-! ### `emitLog` -/

@[simp] theorem State.emitLog_rx (s : State) (e : LogEntry) : (s.emitLog e).rx = s.rx := rfl
@[simp] theorem State.emitLog_hs (s : State) (e : LogEntry) : (s.emitLog e).hs = s.hs := rfl
@[simp] theorem State.emitLog_drv (s : State) (e : LogEntry) : (s.emitLog e).drv = s.drv := rfl
@[simp] theorem State.emitLog_dev (s : State) (e : LogEntry) : (s.emitLog e).dev = s.dev := rfl
@[simp] theorem State.emitLog_cfg (s : State) (e : LogEntry) : (s.emitLog e).cfg = s.cfg := rfl
@[simp] theorem State.emitLog_out (s : State) (e : LogEntry) : (s.emitLog e).out = { s.out with loLog := s.out.loLog ++ [e] } := rfl
@[simp] theorem State.emitLog_pc (s : State) (e : LogEntry) : (s.emitLog e).pc = s.pc := rfl
@[simp] theorem State.emitLog_ret (s : State) (e : LogEntry) : (s.emitLog e).ret = s.ret := rfl
@[simp] theorem State.emitLog_rem (s : State) (e : LogEntry) : (s.emitLog e).rem = s.rem := rfl
@[simp] theorem State.emitLog_inbox (s : State) (e : LogEntry) : (s.emitLog e).inbox = s.inbox := rfl
@[simp] theorem State.emitLog_store (s : State) (e : LogEntry) : (s.emitLog e).store = s.store := rfl
@[simp] theorem State.emitLog_par (s : State) (e : LogEntry) : (s.emitLog e).par = s.par := rfl
@[simp] theorem State.emitLog_draws (s : State) (e : LogEntry) : (s.emitLog e).draws = s.draws := rfl

/-! ### `emitPersist` -/

@[simp] theorem State.emitPersist_rx (s : State) (f : FieldName) : (s.emitPersist f).rx = s.rx := rfl
@[simp] theorem State.emitPersist_hs (s : State) (f : FieldName) : (s.emitPersist f).hs = s.hs := rfl
@[simp] theorem State.emitPersist_drv (s : State) (f : FieldName) : (s.emitPersist f).drv = s.drv := rfl
@[simp] theorem State.emitPersist_dev (s : State) (f : FieldName) : (s.emitPersist f).dev = s.dev := rfl
@[simp] theorem State.emitPersist_cfg (s : State) (f : FieldName) : (s.emitPersist f).cfg = s.cfg := rfl
@[simp] theorem State.emitPersist_out (s : State) (f : FieldName) : (s.emitPersist f).out = { s.out with persistRequest := s.out.persistRequest ++ [f] } := rfl
@[simp] theorem State.emitPersist_pc (s : State) (f : FieldName) : (s.emitPersist f).pc = s.pc := rfl
@[simp] theorem State.emitPersist_ret (s : State) (f : FieldName) : (s.emitPersist f).ret = s.ret := rfl
@[simp] theorem State.emitPersist_rem (s : State) (f : FieldName) : (s.emitPersist f).rem = s.rem := rfl
@[simp] theorem State.emitPersist_inbox (s : State) (f : FieldName) : (s.emitPersist f).inbox = s.inbox := rfl
@[simp] theorem State.emitPersist_store (s : State) (f : FieldName) : (s.emitPersist f).store = s.store := rfl
@[simp] theorem State.emitPersist_par (s : State) (f : FieldName) : (s.emitPersist f).par = s.par := rfl
@[simp] theorem State.emitPersist_draws (s : State) (f : FieldName) : (s.emitPersist f).draws = s.draws := rfl

/-! ### `idleDrives` -/

@[simp] theorem State.idleDrives_rx (s : State) (r : Role) : (s.idleDrives r).rx = s.rx := by
  cases r <;> rfl
@[simp] theorem State.idleDrives_hs (s : State) (r : Role) : (s.idleDrives r).hs = { s.hs with xcvr := if r = .controller then .talk else .listen } := by
  cases r <;> rfl
@[simp] theorem State.idleDrives_drv (s : State) (r : Role) : (s.idleDrives r).drv = { Drives.released with ndac := decide (r = .device), ren := decide (r = .controller) } := by
  cases r <;> rfl
@[simp] theorem State.idleDrives_dev (s : State) (r : Role) : (s.idleDrives r).dev = s.dev := by
  cases r <;> rfl
@[simp] theorem State.idleDrives_cfg (s : State) (r : Role) : (s.idleDrives r).cfg = s.cfg := by
  cases r <;> rfl
@[simp] theorem State.idleDrives_out (s : State) (r : Role) : (s.idleDrives r).out = s.out := by
  cases r <;> rfl
@[simp] theorem State.idleDrives_pc (s : State) (r : Role) : (s.idleDrives r).pc = s.pc := by
  cases r <;> rfl
@[simp] theorem State.idleDrives_ret (s : State) (r : Role) : (s.idleDrives r).ret = s.ret := by
  cases r <;> rfl
@[simp] theorem State.idleDrives_rem (s : State) (r : Role) : (s.idleDrives r).rem = s.rem := by
  cases r <;> rfl
@[simp] theorem State.idleDrives_inbox (s : State) (r : Role) : (s.idleDrives r).inbox = s.inbox := by
  cases r <;> rfl
@[simp] theorem State.idleDrives_store (s : State) (r : Role) : (s.idleDrives r).store = s.store := by
  cases r <;> rfl
@[simp] theorem State.idleDrives_par (s : State) (r : Role) : (s.idleDrives r).par = s.par := by
  cases r <;> rfl
@[simp] theorem State.idleDrives_draws (s : State) (r : Role) : (s.idleDrives r).draws = s.draws := by
  cases r <;> rfl

/-! ### `finish` and `raise` -/

@[simp] theorem State.finish_rx (s : State) (r : Ret) (rest : List Frame) : (s.finish r rest).rx = s.rx := by
  cases rest <;> rfl
@[simp] theorem State.finish_hs (s : State) (r : Ret) (rest : List Frame) : (s.finish r rest).hs = s.hs := by
  cases rest <;> rfl
@[simp] theorem State.finish_drv (s : State) (r : Ret) (rest : List Frame) : (s.finish r rest).drv = s.drv := by
  cases rest <;> rfl
@[simp] theorem State.finish_dev (s : State) (r : Ret) (rest : List Frame) : (s.finish r rest).dev = s.dev := by
  cases rest <;> rfl
@[simp] theorem State.finish_cfg (s : State) (r : Ret) (rest : List Frame) : (s.finish r rest).cfg = s.cfg := by
  cases rest <;> rfl
@[simp] theorem State.finish_out (s : State) (r : Ret) (rest : List Frame) : (s.finish r rest).out = if rest = [] then { s.out with results := s.out.results ++ [r] } else s.out := by
  cases rest <;> rfl
@[simp] theorem State.finish_pc (s : State) (r : Ret) (rest : List Frame) : (s.finish r rest).pc = rest := by
  cases rest <;> rfl
@[simp] theorem State.finish_ret (s : State) (r : Ret) (rest : List Frame) : (s.finish r rest).ret = r := by
  cases rest <;> rfl
@[simp] theorem State.finish_rem (s : State) (r : Ret) (rest : List Frame) : (s.finish r rest).rem = s.rem := by
  cases rest <;> rfl
@[simp] theorem State.finish_inbox (s : State) (r : Ret) (rest : List Frame) : (s.finish r rest).inbox = s.inbox := by
  cases rest <;> rfl
@[simp] theorem State.finish_store (s : State) (r : Ret) (rest : List Frame) : (s.finish r rest).store = s.store := by
  cases rest <;> rfl
@[simp] theorem State.finish_par (s : State) (r : Ret) (rest : List Frame) : (s.finish r rest).par = s.par := by
  cases rest <;> rfl
@[simp] theorem State.finish_draws (s : State) (r : Ret) (rest : List Frame) : (s.finish r rest).draws = s.draws := by
  cases rest <;> rfl

/-- A caller gets the result of the operation it called. -/
@[simp] theorem State.finish_cons (s : State) (r : Ret) (f : Frame) (fs : List Frame) :
    s.finish r (f :: fs) = { s with pc := f :: fs, ret := r } := rfl

/-- A request's result is recorded, and the block is idle. -/
@[simp] theorem State.finish_nil (s : State) (r : Ret) :
    s.finish r [] = { s with pc := [], ret := r, out.results := s.out.results ++ [r] } := rfl

@[simp] theorem State.raise_eq (s : State) (e : ErrKind) (rest : List Frame) :
    s.raise e rest = s.finish (.err e) rest := rfl

/-! ### `accept` -/

/-- An idle block takes a request. -/
theorem State.accept_idle {s : State} (t : State) (h : s.pc = []) : s.accept t = .next t := by
  unfold State.accept; rw [h]

/-- Everything a request's acceptance can do. -/
theorem State.accept_next {s t u : State} (h : s.accept t = .next u) : s.pc = [] ∧ u = t := by
  unfold State.accept at h
  split at h
  · exact ⟨‹_›, by cases h; rfl⟩
  · cases h

/-- A request issued while an operation runs is refused, and nothing else is. -/
theorem State.accept_busy {s : State} (t : State) (h : s.pc ≠ []) : s.accept t = .refused .requestWhileBusy := by
  unfold State.accept
  split
  · exact absurd ‹_› h
  · rfl

end Sys2Proof.Machine
end

