-- ==== Sys2Proof/Laws/Run.lean ====
section
/-!
SUPPORT. Runs put end to end, what `step` does with each head of the schedule, and the operations of the byte engine run
to their end on a silent bus.
-/

namespace Sys2Proof.Machine

/-! ### Putting runs end to end -/

theorem runs_zero (s : State) : Runs 0 s s := rfl

theorem host_run_succ (M : Host.Core) {k : Nat} {s t : M.State} (h : M.step s = .next t) :
    M.run (k + 1) s = M.run k t := by
  rw [Host.Core.run, h]

theorem host_run_succ_next (M : Host.Core) {k : Nat} {s u : M.State} (h : M.run (k + 1) s = .next u) :
    ∃ t, M.step s = .next t ∧ M.run k t = .next u := by
  rw [Host.Core.run] at h
  split at h
  · exact ⟨_, ‹_›, h⟩
  · cases h
  · cases h

theorem runs_succ {k : Nat} {s t u : State} (h : step s = .next t) (h' : Runs k t u) : Runs (k + 1) s u :=
  (host_run_succ Sys2Proof.core h).trans h'

/-- A run of one step and more begins with a step that answers a next state. -/
theorem runs_succ_iff {k : Nat} {s u : State} : Runs (k + 1) s u ↔ ∃ t, step s = .next t ∧ Runs k t u :=
  ⟨fun h => host_run_succ_next Sys2Proof.core h, fun ⟨_, h, h'⟩ => runs_succ h h'⟩

theorem runs_add {j k : Nat} {s t u : State} (h : Runs j s t) (h' : Runs k t u) : Runs (j + k) s u := by
  induction j generalizing s with
  | zero => cases h; simpa using h'
  | succ j ih =>
    obtain ⟨x, hx, hr⟩ := runs_succ_iff.mp h
    rw [Nat.succ_add]
    exact runs_succ hx (ih hr)

theorem busTrace_add {j k : Nat} {s t : State} (h : Runs j s t) : busTrace (j + k) s = busTrace j s ++ busTrace k t := by
  induction j generalizing s with
  | zero => cases h; simp [busTrace]
  | succ j ih =>
    obtain ⟨x, hx, hr⟩ := runs_succ_iff.mp h
    rw [Nat.succ_add]
    simp only [busTrace, hx, ih hr, List.append_assoc]

theorem executes_add {j k : Nat} {s t u : State} {a b : List Talked} (h : Executes j s t a) (h' : Executes k t u b) :
    Executes (j + k) s u (a ++ b) :=
  ⟨runs_add h.1 h'.1, by rw [busTrace_add h.1, h.2, h'.2]⟩

theorem executes_zero (s : State) : Executes 0 s s [] := ⟨rfl, rfl⟩

/-- An invariant of every step is an invariant of every run. -/
theorem runs_invariant {P : State → Prop} (hP : ∀ s t, P s → step s = .next t → P t) {k : Nat} {s t : State}
    (h : Runs k s t) (hs : P s) : P t := by
  induction k generalizing s with
  | zero => cases h; exact hs
  | succ k ih =>
    obtain ⟨x, hx, hr⟩ := runs_succ_iff.mp h
    exact ih hr (hP _ _ hs hx)

/-! ### What a step does with the schedule -/

/-- Where the schedule says nothing and no tick is owed, the main loop goes on. -/
theorem ownStep_notDue {s : State} (h : s.tickDue = false) : ownStep s = mainStep s := by unfold ownStep; simp [h]

/-- Where the schedule says nothing and a tick is owed, it comes. -/
theorem ownStep_due {s : State} (h : s.tickDue = true) : ownStep s = exec .tick s := by unfold ownStep; simp [h, exec]

/-- A tick is owed exactly at line `w4` of a `WAIT` whose condition does not hold and whose bound is not yet exceeded,
while `tick_en` is true. -/
theorem tickDue_iff {s : State} : s.tickDue = true ↔
    ∃ c rest, s.pc = .wait c .w4 :: rest ∧ s.hs.tickEn = true ∧ c.holds s.bus = false ∧
      s.hs.tmoCnt.toNat ≤ s.cfg.timeoutMs.toNat := by
  unfold State.tickDue State.bounded
  constructor
  · intro h
    split at h
    · exact ⟨_, _, ‹_›, by simpa [and_assoc] using h⟩
    · cases h
  · rintro ⟨c, rest, hp, h⟩
    simpa [hp, and_assoc] using h

theorem step_nil {s : State} (h : s.inbox = []) : step s = ownStep s := by unfold step; rw [h]

theorem step_pass {s : State} {q : List Item} (h : s.inbox = .pass :: q) : step s = mainStep { s with inbox := q } := by
  unfold step; rw [h]

theorem step_message {s : State} {bs : List Byte} {q : List Item} {i : Instr} (h : s.inbox = .message bs :: q)
    (hd : decode .request bs = .ok i) :
    step s = if s.admits i then exec i { s with inbox := q } else ownStep s := by
  unfold step; rw [h]; simp only [hd]

/-- Everything a step that answers a next state can be: the main loop's own step, after a `pass` or with the schedule as
it was, a tick that is owed, or the instruction of the message at the schedule's head. -/
theorem step_cases {s t : State} (h : step s = .next t) :
    mainStep s = .next t ∨ (s.tickDue = true ∧ exec .tick s = .next t) ∨ (∃ q, s.inbox = .pass :: q ∧ mainStep { s with inbox := q } = .next t) ∨
      ∃ bs q i, s.inbox = .message bs :: q ∧ decode .request bs = .ok i ∧ s.admits i = true ∧
        exec i { s with inbox := q } = .next t := by
  have own : ownStep s = .next t → mainStep s = .next t ∨ s.tickDue = true ∧ exec .tick s = .next t := by
    intro h
    cases hd : s.tickDue with
    | false => exact .inl (ownStep_notDue hd ▸ h)
    | true => exact .inr ⟨rfl, ownStep_due hd ▸ h⟩
  unfold step at h
  split at h
  · obtain h | h := own h
    · exact .inl h
    · exact .inr (.inl h)
  · exact .inr (.inr (.inl ⟨_, ‹_›, h⟩))
  · split at h
    · cases h
    · split at h
      · exact .inr (.inr (.inr ⟨_, _, _, ‹_›, ‹_›, ‹_›, h⟩))
      · obtain h | h := own h
        · exact .inl h
        · exact .inr (.inl h)

/-! ### `dev_clear()` and `ifc_reset()` -/

/-- The three lines of `dev_clear()`, from its first on, when the environment makes no move: every flag false, `status` 0,
SRQ released, and the position is the caller's (R245, R251). -/
theorem executes_devClear {s : State} {rest : List Frame} (hs : s.inbox = []) (hpc : s.pc = .devClear .e1 :: rest) :
    Executes 3 s { s with dev := Device.cleared, drv.srq := false, pc := rest } [] := by
  obtain ⟨rx, hs', ⟨a, d, eo, n, k, i, q, r, dio⟩, dev, cfg, out, pc, ret, rem, inbox, store, par, dr⟩ := s
  cases hs; cases hpc
  exact ⟨rfl, by simp [busTrace, step, ownStep, State.tickDue, mainStep, runLine, devClearLine, State.goto]⟩

/-! ### The byte engine on a silent bus -/

/-- `SEND_BYTE` called with nobody on the bus: fifteen steps, one byte on the bus, every line it drove released. -/
theorem executes_sendByte {s : State} {v : Byte} {e : Bool} {rest : List Frame} (hs : s.silent)
    (hpc : s.pc = .sendByte v e .s1 :: rest) (hdav : s.drv.dav = false) (heoi : s.drv.eoi = false) :
    Executes 15 s
      ({ s with hs.xcvr := .talk, hs.tmoCnt := 0#16, hs.tickEn := false, drv.nrfd := false, drv.ndac := false,
                drv.dav := false, drv.eoi := false, drv.dio := 0x00#8 }.finish .ok rest)
      [⟨v, e, s.drv.atn⟩] := by
  obtain ⟨rx, ⟨tc, te, xc, ld, le⟩, ⟨a, d, eo, n, k, i, q, r, dio⟩, dev, cfg, out, pc, ret, rem, inbox, store, par, dr⟩ := s
  obtain ⟨h1, h2⟩ := hs
  cases h1; cases h2; cases hpc; cases hdav; cases heoi
  constructor
  · cases rest <;> rfl
  · cases e <;> cases rest <;> rfl

end Sys2Proof.Machine
end

