-- ==== Sys2Proof/Laws/Sequencer.lean ====
section
/-!
SUPPORT. What the loops of the controller operations can answer, the instructions a message can hold, and what a step of the
machine can be: the case analysis every invariant starts from.
-/

namespace Sys2Proof.Machine

/-! ### Loops -/

theorem msaIf_true (sad : Byte) : msaIf sad true = [(Cmd.msa sad).byte] := rfl

theorem msaIf_false (sad : Byte) : msaIf sad false = [] := rfl

/-- The checks of an addressing operation pass exactly in Controller role with a legal address. -/
theorem setupError_none {s : State} {pad sad : Byte} {useSad : Bool} :
    s.setupError pad sad useSad = none ↔ s.isController = true ∧ addressOk pad sad useSad = true := by
  unfold State.setupError
  cases s.isController <;> cases addressOk pad sad useSad <;> simp

/-- A setup has three commands at least. -/
theorem setupBytes_cons (pad sad : Byte) (useSad : Bool) (d : Direction) :
    ∃ b bs, setupBytes pad sad useSad d = b :: bs := by
  cases d <;> exact ⟨_, _, rfl⟩

theorem pollBytes_cons (pad sad : Byte) (useSad : Bool) : ∃ b bs, pollBytes pad sad useSad = b :: bs :=
  ⟨_, _, rfl⟩

/-- Everything the loop of `SEND_GROUP_TRIGGER` can do: end with a result, or address an entry of the list. -/
theorem groupTriggerLoop_cases (todo : List Target) (first : Option ErrKind) (rest : List Frame) (s : State) :
    (∃ f, groupTriggerLoop todo first rest s = s.finish (groupResult f) rest) ∨
      ∃ (x : Target) (ts : List Target) (f : Option ErrKind) (b : Byte) (bs : List Byte), s.isController = true ∧ addressOk x.pad x.sad x.useSad = true ∧
        setupBytes x.pad x.sad x.useSad .send = b :: bs ∧
        groupTriggerLoop todo first rest s =
          s.goto (.sendCommand b .c1 :: .addressingSetup bs :: .groupTrigger ts f .addressing :: rest) := by
  induction todo generalizing first with
  | nil => exact .inl ⟨first, rfl⟩
  | cons x ts ih =>
    unfold groupTriggerLoop
    split
    · exact ih _
    · rename_i h
      obtain ⟨b, bs, hb⟩ := setupBytes_cons x.pad x.sad x.useSad .send
      refine .inr ⟨x, ts, first, b, bs, ?_, ?_, hb, ?_⟩
      · exact (setupError_none.mp h).1
      · exact (setupError_none.mp h).2
      · simp only [addressingLoop, hb]

/-! ### Messages -/

/-- An instruction that came in as a message is a request or an event. -/
theorem decodeMessage_kind {bs : List Byte} {i : Instr} (h : decodeMessage bs = .ok i) :
    i.kind = .request ∨ i.kind = .event := by
  have typed_kind : ∀ {o : Option Instr} {k : Kind}, (∀ j, o = some j → j.kind = k) → typed o = .ok i → i.kind = k := by
    intro o k ho hi
    cases o with
    | none => cases hi
    | some j => cases hi; exact ho _ rfl
  have noOps : ∀ {j : Instr} {ops : List Byte}, noOperands j ops = .ok i → i = j := by
    intro j ops hi
    cases ops with
    | nil => cases hi; rfl
    | cons _ _ => cases hi
  unfold decodeMessage at h
  split at h
  · cases h
  · split at h
    · left; unfold decodeSendByte at h; split at h
      · refine typed_kind ?_ h; intro j hj; simp only [Option.map_eq_some_iff] at hj; obtain ⟨_, _, rfl⟩ := hj; rfl
      · cases h
    · left; rw [noOps h]; rfl
    · left; unfold decodeSendCommand at h; split at h <;> cases h; rfl
    · left; unfold decodeSendData at h; split at h
      · refine typed_kind ?_ h; intro j hj; simp only [Option.map_eq_some_iff] at hj; obtain ⟨_, _, rfl⟩ := hj; rfl
      · cases h
    · left; unfold decodeReceiveMessage at h; split at h
      · refine typed_kind ?_ h; intro j hj; simp only [Option.map_eq_some_iff] at hj; obtain ⟨_, _, rfl⟩ := hj; rfl
      · cases h
    · left; unfold decodeAddressingSetup at h; split at h
      · split at h <;> cases h; rfl
      · cases h
    · left; unfold decodeReadStatusByte at h; split at h
      · refine typed_kind ?_ h; intro j hj; simp only [Option.map_eq_some_iff] at hj; obtain ⟨_, _, rfl⟩ := hj; rfl
      · cases h
    · left; rw [noOps h]; rfl
    · left; unfold decodeGroupTrigger at h; split at h
      · split at h <;> cases h; rfl
      · cases h
    · left; rw [noOps h]; rfl
    · left; rw [noOps h]; rfl
    · left; rw [noOps h]; rfl
    · left; rw [noOps h]; rfl
    · left; unfold decodeSetRole at h; split at h
      · refine typed_kind ?_ h; intro j hj; simp only [Option.map_eq_some_iff] at hj; obtain ⟨_, _, rfl⟩ := hj; rfl
      · cases h
    · left; unfold decodeSetListenOnly at h; split at h
      · refine typed_kind ?_ h; intro j hj; simp only [Option.map_eq_some_iff] at hj; obtain ⟨_, _, rfl⟩ := hj; rfl
      · cases h
    · left; unfold decodeSetStatus at h; split at h <;> cases h; rfl
    · left; unfold decodeSetSrq at h; split at h
      · refine typed_kind ?_ h; intro j hj; simp only [Option.map_eq_some_iff] at hj; obtain ⟨_, _, rfl⟩ := hj; rfl
      · cases h
    · left; unfold decodeSetConfig at h
      refine typed_kind ?_ h; intro j hj; simp only [Option.map_eq_some_iff] at hj; obtain ⟨_, _, rfl⟩ := hj; rfl
    · right; unfold decodeRxBurst at h; split at h <;> cases h; rfl
    · right; rw [noOps h]; rfl
    · right; unfold decodeBusDrive at h; split at h
      · split at h <;> cases h; rfl
      · cases h
    · right; rw [noOps h]; rfl
    · cases h

/-- Everything a step that answers a next state can be, by whose move it is: a line of the operation in progress, the start
of the free-running main cycle, a request taken by the idle block, or an event.  `p` is the state with the schedule
advanced (or as it was, where the head of the schedule waits). -/
theorem step_moves {s t : State} (h : step s = .next t) :
    ∃ q, ∃ p : State, p = { s with inbox := q } ∧
      ((∃ f rest, p.pc = f :: rest ∧ runLine f rest p = .next t) ∨
       (p.pc = [] ∧ execMainCycle p = .next t) ∨
       (∃ i, i.kind = .request ∧ p.pc = [] ∧ exec i p = .next t) ∨
       (∃ i, i.kind = .event ∧ (isBurst i = true → p.rx.enabled = true) ∧ exec i p = .next t)) := by
  have main : ∀ p : State, mainStep p = .next t →
      (∃ f rest, p.pc = f :: rest ∧ runLine f rest p = .next t) ∨ (p.pc = [] ∧ execMainCycle p = .next t) := by
    intro p hp
    unfold mainStep at hp
    split at hp
    · exact .inr ⟨‹_›, hp⟩
    · exact .inl ⟨_, _, ‹_›, hp⟩
  obtain h | ⟨_, h⟩ | ⟨q, _, h⟩ | ⟨bs, q, i, _, hd, ha, h⟩ := step_cases h
  · refine ⟨s.inbox, s, rfl, ?_⟩
    obtain h | h := main _ h
    · exact .inl h
    · exact .inr (.inl h)
  · exact ⟨s.inbox, s, rfl, .inr (.inr (.inr ⟨.tick, rfl, nofun, h⟩))⟩
  · refine ⟨q, _, rfl, ?_⟩
    obtain h | h := main _ h
    · exact .inl h
    · exact .inr (.inl h)
  · refine ⟨q, _, rfl, ?_⟩
    unfold State.admits at ha
    obtain hk | hk := decodeMessage_kind hd
    · refine .inr (.inr (.inl ⟨i, hk, ?_, h⟩))
      have hb : isBurst i = false := by cases i <;> simp_all [Instr.kind, isBurst]
      simpa [hb, hk] using ha
    · refine .inr (.inr (.inr ⟨i, hk, ?_, h⟩))
      intro hb; simpa [hb] using ha

/-! ### Nesting: a caller's rank is above its callee's -/

theorem nested_tail {f : Frame} {rest} (h : nested (f :: rest) = true) : nested rest = true := by
  cases rest with
  | nil => rfl
  | cons g r => simp [nested] at h; exact h.2

/-- How far from the byte engine an operation stands: an operation calls only operations of lower rank. -/
def Frame.rank : Frame → Nat
  | .wait _ _ => 0
  | .sendByte _ _ _ => 1
  | .receiveByte _ => 1
  | .sendCommand _ _ => 2
  | .sendData _ _ => 3
  | .receiveMessage _ _ _ => 3
  | .addressingSetup _ => 4
  | .readStatusByte _ _ _ _ => 5
  | .groupTrigger _ _ _ => 6
  | .devClear _ => 6
  | .deviceCycle _ => 7
  | .listenOnlyCycle _ => 7
  | .mainCycle _ => 8
  | .setRole _ _ => 9
  | .setListenOnly _ _ => 9
  | .sendIfc _ => 9
  | .boot _ => 9

/-- The rank of an operation. -/
def Op.rank : Op → Nat
  | .wait _ => 0
  | .sendByte _ _ => 1
  | .receiveByte => 1
  | .sendCommand _ => 2
  | .sendData => 3
  | .receiveMessage _ _ => 3
  | .addressingSetup => 4
  | .readStatusByte => 5
  | .groupTrigger => 6
  | .devClear => 6
  | .deviceCycle => 7
  | .listenOnlyCycle => 7
  | .mainCycle => 8
  | .setRole => 9
  | .setListenOnly => 9
  | .sendIfc => 9
  | .boot => 9

theorem op_rank (f : Frame) : f.op.rank = f.rank := by cases f <;> rfl

theorem calls_rank {f : Frame} {o : Op} (h : f.calls o = true) : o.rank < f.rank := by
  cases f
  all_goals try (rename_i l; cases l)
  all_goals
    cases o <;> simp_all [Frame.calls, Op.rank, Frame.rank, Op.isSendByte, Op.isSendCommand, ReadStatusLine.calls,
      DeviceCycleLine.calls, ListenOnlyLine.calls, MainCycleLine.calls]

/-- The callers of the operation in progress rank above it. -/
theorem nested_rank {f : Frame} {rest} (h : nested (f :: rest) = true) : ∀ g ∈ rest, f.rank < g.rank := by
  induction rest generalizing f with
  | nil => intro g hg; cases hg
  | cons g r ih =>
    simp only [nested, Bool.and_eq_true] at h
    have h1 := calls_rank h.1
    rw [op_rank] at h1
    intro x hx
    rcases List.mem_cons.mp hx with rfl | hx
    · exact h1
    · exact lt_trans h1 (ih h.2 x hx)

end Sys2Proof.Machine
end

