-- ==== Sys2Proof/Laws/Device.lean ====
section
/-!
SUPPORT. What the device state's transitions and the command log leave alone, one lemma per field.
-/

namespace Sys2Proof.Machine

/-! ### `applyCmd`: the device state, the `dev_event` port and the position, and nothing else
(R241) -/

@[simp] theorem applyCmd_rx (c : Cmd) (s : State) : (applyCmd c s).rx = s.rx := by
  cases c <;> simp only [applyCmd, onMla, onMta, onUnl, onUnt, onDcl, onSdc, onSpe, onSpd, onHook] <;> (try split) <;> rfl
@[simp] theorem applyCmd_hs (c : Cmd) (s : State) : (applyCmd c s).hs = s.hs := by
  cases c <;> simp only [applyCmd, onMla, onMta, onUnl, onUnt, onDcl, onSdc, onSpe, onSpd, onHook] <;> (try split) <;> rfl
@[simp] theorem applyCmd_drv (c : Cmd) (s : State) : (applyCmd c s).drv = s.drv := by
  cases c <;> simp only [applyCmd, onMla, onMta, onUnl, onUnt, onDcl, onSdc, onSpe, onSpd, onHook] <;> (try split) <;> rfl
@[simp] theorem applyCmd_cfg (c : Cmd) (s : State) : (applyCmd c s).cfg = s.cfg := by
  cases c <;> simp only [applyCmd, onMla, onMta, onUnl, onUnt, onDcl, onSdc, onSpe, onSpd, onHook] <;> (try split) <;> rfl
@[simp] theorem applyCmd_ret (c : Cmd) (s : State) : (applyCmd c s).ret = s.ret := by
  cases c <;> simp only [applyCmd, onMla, onMta, onUnl, onUnt, onDcl, onSdc, onSpe, onSpd, onHook] <;> (try split) <;> rfl
@[simp] theorem applyCmd_rem (c : Cmd) (s : State) : (applyCmd c s).rem = s.rem := by
  cases c <;> simp only [applyCmd, onMla, onMta, onUnl, onUnt, onDcl, onSdc, onSpe, onSpd, onHook] <;> (try split) <;> rfl
@[simp] theorem applyCmd_inbox (c : Cmd) (s : State) : (applyCmd c s).inbox = s.inbox := by
  cases c <;> simp only [applyCmd, onMla, onMta, onUnl, onUnt, onDcl, onSdc, onSpe, onSpd, onHook] <;> (try split) <;> rfl
@[simp] theorem applyCmd_store (c : Cmd) (s : State) : (applyCmd c s).store = s.store := by
  cases c <;> simp only [applyCmd, onMla, onMta, onUnl, onUnt, onDcl, onSdc, onSpe, onSpd, onHook] <;> (try split) <;> rfl
@[simp] theorem applyCmd_par (c : Cmd) (s : State) : (applyCmd c s).par = s.par := by
  cases c <;> simp only [applyCmd, onMla, onMta, onUnl, onUnt, onDcl, onSdc, onSpe, onSpd, onHook] <;> (try split) <;> rfl
@[simp] theorem applyCmd_draws (c : Cmd) (s : State) : (applyCmd c s).draws = s.draws := by
  cases c <;> simp only [applyCmd, onMla, onMta, onUnl, onUnt, onDcl, onSdc, onSpe, onSpd, onHook] <;> (try split) <;> rfl

/-- A command leaves the sequencer where it is, or goes on to the second line of `dev_clear()` (R245). -/
theorem applyCmd_pc (c : Cmd) (s : State) : (applyCmd c s).pc = s.pc ∨ (applyCmd c s).pc = .devClear .e2 :: s.pc := by
  cases c <;> simp only [applyCmd, onMla, onMta, onUnl, onUnt, onDcl, onSdc, onSpe, onSpd, onHook] <;> (try split) <;>
    simp [devClearLine, State.emitDevEvent]

/-- A command never sets `status`: its first line leaves it (R241, R245). -/
@[simp] theorem applyCmd_status (c : Cmd) (s : State) : (applyCmd c s).dev.status = s.dev.status := by
  cases c <;> simp only [applyCmd, onMla, onMta, onUnl, onUnt, onDcl, onSdc, onSpe, onSpd, onHook] <;> (try split) <;> rfl

/-! ### `applyReceived`: one command, or nothing -/

theorem applyReceived_cases (s : State) : applyReceived s = s ∨ ∃ c, applyReceived s = applyCmd c s := by
  unfold applyReceived
  split
  · exact .inr ⟨_, rfl⟩
  · exact .inl rfl

@[simp] theorem applyReceived_rx (s : State) : (applyReceived s).rx = s.rx := by
  obtain h | ⟨c, h⟩ := applyReceived_cases s <;> rw [h]; exact applyCmd_rx c s
@[simp] theorem applyReceived_hs (s : State) : (applyReceived s).hs = s.hs := by
  obtain h | ⟨c, h⟩ := applyReceived_cases s <;> rw [h]; exact applyCmd_hs c s
@[simp] theorem applyReceived_drv (s : State) : (applyReceived s).drv = s.drv := by
  obtain h | ⟨c, h⟩ := applyReceived_cases s <;> rw [h]; exact applyCmd_drv c s
@[simp] theorem applyReceived_cfg (s : State) : (applyReceived s).cfg = s.cfg := by
  obtain h | ⟨c, h⟩ := applyReceived_cases s <;> rw [h]; exact applyCmd_cfg c s
@[simp] theorem applyReceived_ret (s : State) : (applyReceived s).ret = s.ret := by
  obtain h | ⟨c, h⟩ := applyReceived_cases s <;> rw [h]; exact applyCmd_ret c s
@[simp] theorem applyReceived_rem (s : State) : (applyReceived s).rem = s.rem := by
  obtain h | ⟨c, h⟩ := applyReceived_cases s <;> rw [h]; exact applyCmd_rem c s
@[simp] theorem applyReceived_inbox (s : State) : (applyReceived s).inbox = s.inbox := by
  obtain h | ⟨c, h⟩ := applyReceived_cases s <;> rw [h]; exact applyCmd_inbox c s
@[simp] theorem applyReceived_store (s : State) : (applyReceived s).store = s.store := by
  obtain h | ⟨c, h⟩ := applyReceived_cases s <;> rw [h]; exact applyCmd_store c s
@[simp] theorem applyReceived_par (s : State) : (applyReceived s).par = s.par := by
  obtain h | ⟨c, h⟩ := applyReceived_cases s <;> rw [h]; exact applyCmd_par c s
@[simp] theorem applyReceived_draws (s : State) : (applyReceived s).draws = s.draws := by
  obtain h | ⟨c, h⟩ := applyReceived_cases s <;> rw [h]; exact applyCmd_draws c s

/-! ### `logReceived` (R271): the `lo_log` port, and nothing else -/

theorem logReceived_cases (s : State) : logReceived s = s ∨ ∃ e, logReceived s = s.emitLog e := by
  unfold logReceived
  split
  · exact .inr ⟨_, rfl⟩
  · exact .inl rfl

@[simp] theorem logReceived_rx (s : State) : (logReceived s).rx = s.rx := by
  obtain h | ⟨e, h⟩ := logReceived_cases s <;> rw [h]; rfl
@[simp] theorem logReceived_hs (s : State) : (logReceived s).hs = s.hs := by
  obtain h | ⟨e, h⟩ := logReceived_cases s <;> rw [h]; rfl
@[simp] theorem logReceived_drv (s : State) : (logReceived s).drv = s.drv := by
  obtain h | ⟨e, h⟩ := logReceived_cases s <;> rw [h]; rfl
@[simp] theorem logReceived_dev (s : State) : (logReceived s).dev = s.dev := by
  obtain h | ⟨e, h⟩ := logReceived_cases s <;> rw [h]; rfl
@[simp] theorem logReceived_cfg (s : State) : (logReceived s).cfg = s.cfg := by
  obtain h | ⟨e, h⟩ := logReceived_cases s <;> rw [h]; rfl
@[simp] theorem logReceived_pc (s : State) : (logReceived s).pc = s.pc := by
  obtain h | ⟨e, h⟩ := logReceived_cases s <;> rw [h]; rfl
@[simp] theorem logReceived_ret (s : State) : (logReceived s).ret = s.ret := by
  obtain h | ⟨e, h⟩ := logReceived_cases s <;> rw [h]; rfl
@[simp] theorem logReceived_rem (s : State) : (logReceived s).rem = s.rem := by
  obtain h | ⟨e, h⟩ := logReceived_cases s <;> rw [h]; rfl
@[simp] theorem logReceived_inbox (s : State) : (logReceived s).inbox = s.inbox := by
  obtain h | ⟨e, h⟩ := logReceived_cases s <;> rw [h]; rfl
@[simp] theorem logReceived_store (s : State) : (logReceived s).store = s.store := by
  obtain h | ⟨e, h⟩ := logReceived_cases s <;> rw [h]; rfl
@[simp] theorem logReceived_par (s : State) : (logReceived s).par = s.par := by
  obtain h | ⟨e, h⟩ := logReceived_cases s <;> rw [h]; rfl
@[simp] theorem logReceived_draws (s : State) : (logReceived s).draws = s.draws := by
  obtain h | ⟨e, h⟩ := logReceived_cases s <;> rw [h]; rfl

end Sys2Proof.Machine
end

