-- ==== Sys2Proof/Laws/Memory.lean ====
section
/-!
SUPPORT. The ring as memory: reading after writing, the canonical form kept by every memory operation, and the ring
operations of the receiver said through one-byte reads.
-/

namespace Sys2Proof.Machine

/-! ### The canonical form -/

theorem Memory.wfFrom_cons {lo a : Nat} {v : Byte} {m : List Host.Cell} :
    Memory.wfFrom lo ((a, v) :: m) = true ↔
      ((lo ≤ a ∧ a < 256) ∧ v ≠ Memory.unlisted) ∧ Memory.wfFrom (a + 1) m = true := by
  rw [Memory.wfFrom, Config.ringSize, Bool.and_eq_true, Bool.and_eq_true, Bool.and_eq_true, decide_eq_true_iff,
    decide_eq_true_iff, decide_eq_true_iff]

theorem Memory.wfFrom_mono {lo lo' : Nat} (h : lo' ≤ lo) {m : List Host.Cell} (hm : Memory.wfFrom lo m = true) :
    Memory.wfFrom lo' m = true := by
  cases m with
  | nil => rfl
  | cons c m =>
    obtain ⟨a, v⟩ := c
    rw [Memory.wfFrom_cons] at hm ⊢
    exact ⟨⟨⟨by omega, hm.1.1.2⟩, hm.1.2⟩, hm.2⟩

/-- Nothing below the first address is listed. -/
theorem Memory.read_below {lo k : Nat} (h : k < lo) {m : List Host.Cell} (hm : Memory.wfFrom lo m = true) :
    Memory.read m k = Memory.unlisted := by
  induction m generalizing lo with
  | nil => rfl
  | cons c m ih =>
    obtain ⟨a, v⟩ := c
    rw [Memory.wfFrom_cons] at hm
    rw [Memory.read, if_neg (by omega)]
    exact ih (by omega) hm.2

theorem Memory.wfFrom_write {lo k : Nat} {v : Byte} (hlo : lo ≤ k) (hk : k < 256) {m : List Host.Cell}
    (hm : Memory.wfFrom lo m = true) : Memory.wfFrom lo (Memory.write m k v) = true := by
  induction m generalizing lo with
  | nil =>
    unfold Memory.write
    split
    · rfl
    · rw [Memory.wfFrom_cons]; refine ⟨?_, rfl⟩
      exact ⟨⟨hlo, hk⟩, ‹_›⟩
  | cons c m ih =>
    obtain ⟨a, w⟩ := c
    have hm' := hm
    rw [Memory.wfFrom_cons] at hm
    unfold Memory.write
    split
    · split
      · exact hm'
      · rw [Memory.wfFrom_cons]
        exact ⟨⟨⟨hlo, hk⟩, ‹_›⟩, Memory.wfFrom_cons.mpr ⟨⟨⟨by omega, hm.1.1.2⟩, hm.1.2⟩, hm.2⟩⟩
    · split
      · subst k
        split
        · exact Memory.wfFrom_mono (by omega) hm.2
        · rw [Memory.wfFrom_cons]
          exact ⟨⟨⟨hlo, hk⟩, ‹_›⟩, hm.2⟩
      · rw [Memory.wfFrom_cons]
        exact ⟨hm.1, ih (by omega) hm.2⟩

/-- A write keeps the canonical form. -/
theorem Memory.wf_write {m : List Host.Cell} (hm : Memory.wf m = true) (a : Byte) (v : Byte) :
    Memory.wf (Memory.write m a.toNat v) = true :=
  Memory.wfFrom_write (Nat.zero_le _) a.isLt hm

theorem Memory.wfFrom_fill (f : Nat → Byte) : ∀ n a : Nat, a + n ≤ 256 → Memory.wfFrom a (Memory.fill f n a) = true
  | 0, _, _ => rfl
  | n + 1, a, h => by
    unfold Memory.fill
    split
    · exact Memory.wfFrom_mono (Nat.le_succ a) (Memory.wfFrom_fill f n (a + 1) (by omega))
    · rw [Memory.wfFrom_cons]
      exact ⟨⟨⟨Nat.le_refl a, by omega⟩, ‹_›⟩, Memory.wfFrom_fill f n (a + 1) (by omega)⟩

/-- The ring drawn at a `RESET` has the canonical form. -/
theorem Memory.wf_drawnRing (d : Nat) : Memory.wf (drawnRing d) = true :=
  Memory.wfFrom_fill _ 256 0 (by omega)

/-! ### Reading -/

theorem Memory.read_write_same {m : List Host.Cell} {lo : Nat} (hm : Memory.wfFrom lo m = true) (k : Nat) (v : Byte) :
    Memory.read (Memory.write m k v) k = v := by
  induction m generalizing lo with
  | nil =>
    unfold Memory.write
    split
    · simp only [Memory.read]; exact (‹v = _›).symm
    · simp [Memory.read]
  | cons c m ih =>
    obtain ⟨a, w⟩ := c
    rw [Memory.wfFrom_cons] at hm
    unfold Memory.write
    split
    · split
      · rw [Memory.read, if_neg (by omega), Memory.read_below (lo := a + 1) (by omega) hm.2]
        exact (‹v = _›).symm
      · simp [Memory.read]
    · split
      · subst k
        split
        · rw [Memory.read_below (lo := a + 1) (by omega) hm.2]; exact (‹v = _›).symm
        · simp [Memory.read]
      · rw [Memory.read, if_neg (by omega)]; exact ih hm.2

theorem Memory.read_write_other (m : List Host.Cell) {k j : Nat} (h : j ≠ k) (v : Byte) :
    Memory.read (Memory.write m k v) j = Memory.read m j := by
  induction m with
  | nil =>
    unfold Memory.write
    split
    · rfl
    · simp [Memory.read, Ne.symm h]
  | cons c m ih =>
    obtain ⟨a, w⟩ := c
    unfold Memory.write
    split
    · split
      · rfl
      · rw [Memory.read, if_neg (Ne.symm h)]
    · split
      · subst k
        split
        · rw [Memory.read, if_neg (Ne.symm h)]
        · rw [Memory.read, Memory.read, if_neg (Ne.symm h), if_neg (Ne.symm h)]
      · rw [Memory.read, Memory.read, ih]

/-! ### Through the receiver -/

theorem Receiver.memRead_memWrite_same {r : Receiver} (h : Memory.wf r.ring = true) (a v : Byte) :
    (r.memWrite a v).memRead a = v := Memory.read_write_same h _ _

theorem Receiver.memRead_memWrite_other (r : Receiver) {a b : Byte} (h : b ≠ a) (v : Byte) :
    (r.memWrite a v).memRead b = r.memRead b :=
  Memory.read_write_other _ (fun e => h (BitVec.eq_of_toNat_eq e)) _

theorem Receiver.wf_memWrite {r : Receiver} (h : Memory.wf r.ring = true) (a v : Byte) :
    Memory.wf (r.memWrite a v).ring = true := Memory.wf_write h a v

end Sys2Proof.Machine
end

