-- ==== Sys2Proof/Laws/PerInstr.lean ====
section
/-!
SUPPORT. Facts about every instruction as syntax, one lemma per constructor.  `EncodedForm`: what the bytes of an
instruction look like.  No encoding is empty, the tables of R100 and R101 hold exactly the instructions that arrive as
messages, and a command byte or a link byte is one byte (R91, R95).
-/

namespace Sys2Proof.Laws.EncodedForm

/-- An instruction's bytes are not empty; it arrives on the request interface exactly when it is a request or an event; and
a command or a link class is one byte. -/
def Statement (i : Instr) : Prop :=
  encode i ≠ [] ∧ (i.port = .request ↔ i.kind = .request ∨ i.kind = .event) ∧
    (i.kind = .command ∨ i.kind = .linkChar → (encode i).length = 1)

theorem ofMessage {i : Instr} (he : encode i ≠ []) (hp : i.port = .request) (hk : i.kind = .request ∨ i.kind = .event) :
    Statement i := by
  refine ⟨he, ⟨fun _ => hk, fun _ => hp⟩, fun h => ?_⟩
  rcases hk with hk | hk <;> rw [hk] at h <;> simp at h

theorem ofByte {i : Instr} (he : (encode i).length = 1) (hp : i.port ≠ .request)
    (hk : i.kind = .command ∨ i.kind = .linkChar) : Statement i := by
  refine ⟨fun h => by rw [h] at he; simp at he, ⟨fun h => absurd h hp, fun h => ?_⟩, fun _ => he⟩
  rcases hk with hk | hk <;> rw [hk] at h <;> simp at h

theorem sendByte (value : Byte) (assertEoi : Bool) : Statement (.sendByte value assertEoi) :=
  ofMessage nofun rfl (.inl rfl)

theorem receiveByte : Statement (.receiveByte) :=
  ofMessage nofun rfl (.inl rfl)

theorem sendCommand (byte : Byte) : Statement (.sendCommand byte) :=
  ofMessage nofun rfl (.inl rfl)

theorem sendData (buffer : List Byte) (useEoi : Bool) : Statement (.sendData buffer useEoi) :=
  ofMessage nofun rfl (.inl rfl)

theorem receiveMessage (mode : RecvMode) (stopChar : Byte) : Statement (.receiveMessage mode stopChar) :=
  ofMessage nofun rfl (.inl rfl)

theorem addressingSetup (pad sad : Byte) (useSad : Bool) (direction : Direction) : Statement (.addressingSetup pad sad useSad direction) :=
  ofMessage nofun rfl (.inl rfl)

theorem readStatusByte (pad sad : Byte) (useSad : Bool) : Statement (.readStatusByte pad sad useSad) :=
  ofMessage nofun rfl (.inl rfl)

theorem sendIfc : Statement (.sendIfc) :=
  ofMessage nofun rfl (.inl rfl)

theorem sendGroupTrigger (list : List Target) : Statement (.sendGroupTrigger list) :=
  ofMessage nofun rfl (.inl rfl)

theorem popRecord : Statement (.popRecord) :=
  ofMessage nofun rfl (.inl rfl)

theorem deviceCycle : Statement (.deviceCycle) :=
  ofMessage nofun rfl (.inl rfl)

theorem listenOnlyCycle : Statement (.listenOnlyCycle) :=
  ofMessage nofun rfl (.inl rfl)

theorem mainCycle : Statement (.mainCycle) :=
  ofMessage nofun rfl (.inl rfl)

theorem setRole (role : Role) : Statement (.setRole role) :=
  ofMessage nofun rfl (.inl rfl)

theorem setListenOnly (on : Bool) : Statement (.setListenOnly on) :=
  ofMessage nofun rfl (.inl rfl)

theorem setStatus (value : Byte) : Statement (.setStatus value) :=
  ofMessage nofun rfl (.inl rfl)

theorem setSrq (on : Bool) : Statement (.setSrq on) :=
  ofMessage nofun rfl (.inl rfl)

theorem setConfig (write : ConfigWrite) : Statement (.setConfig write) :=
  ofMessage nofun rfl (.inl rfl)

theorem rxBurst (bytes : List Byte) : Statement (.rxBurst bytes) :=
  ofMessage nofun rfl (.inr rfl)

theorem tick : Statement (.tick) :=
  ofMessage nofun rfl (.inr rfl)

theorem busDrive (drive : BusDrive) : Statement (.busDrive drive) :=
  ofMessage nofun rfl (.inr rfl)

theorem reset : Statement (.reset) :=
  ofMessage nofun rfl (.inr rfl)

theorem gtl : Statement (.gtl) :=
  ofByte rfl nofun (.inl rfl)

theorem sdc : Statement (.sdc) :=
  ofByte rfl nofun (.inl rfl)

theorem get : Statement (.get) :=
  ofByte rfl nofun (.inl rfl)

theorem llo : Statement (.llo) :=
  ofByte rfl nofun (.inl rfl)

theorem dcl : Statement (.dcl) :=
  ofByte rfl nofun (.inl rfl)

theorem spe : Statement (.spe) :=
  ofByte rfl nofun (.inl rfl)

theorem spd : Statement (.spd) :=
  ofByte rfl nofun (.inl rfl)

theorem unl : Statement (.unl) :=
  ofByte rfl nofun (.inl rfl)

theorem mla (a : Byte) : Statement (.mla a) :=
  ofByte rfl nofun (.inl rfl)

theorem unt : Statement (.unt) :=
  ofByte rfl nofun (.inl rfl)

theorem mta (a : Byte) : Statement (.mta a) :=
  ofByte rfl nofun (.inl rfl)

theorem msa (s : Byte) : Statement (.msa s) :=
  ofByte rfl nofun (.inl rfl)

theorem other (c : Byte) : Statement (.other c) :=
  ofByte rfl nofun (.inl rfl)

theorem esc : Statement (.esc) :=
  ofByte rfl nofun (.inr rfl)

theorem plus : Statement (.plus) :=
  ofByte rfl nofun (.inr rfl)

theorem leadingPlusPair : Statement (.leadingPlusPair) :=
  ofByte rfl nofun (.inr rfl)

theorem cr : Statement (.cr) :=
  ofByte rfl nofun (.inr rfl)

theorem lf : Statement (.lf) :=
  ofByte rfl nofun (.inr rfl)

theorem lit (c : Byte) : Statement (.lit c) :=
  ofByte rfl nofun (.inr rfl)

theorem escaped (c : Byte) : Statement (.escaped c) :=
  ofByte rfl nofun (.inr rfl)

theorem discard (c : Byte) : Statement (.discard c) :=
  ofByte rfl nofun (.inr rfl)

/-- The statement holds of every instruction. -/
theorem all (i : Instr) : Statement i := by
  cases i
  · exact sendByte _ _
  · exact receiveByte
  · exact sendCommand _
  · exact sendData _ _
  · exact receiveMessage _ _
  · exact addressingSetup _ _ _ _
  · exact readStatusByte _ _ _
  · exact sendIfc
  · exact sendGroupTrigger _
  · exact popRecord
  · exact deviceCycle
  · exact listenOnlyCycle
  · exact mainCycle
  · exact setRole _
  · exact setListenOnly _
  · exact setStatus _
  · exact setSrq _
  · exact setConfig _
  · exact rxBurst _
  · exact tick
  · exact busDrive _
  · exact reset
  · exact gtl
  · exact sdc
  · exact get
  · exact llo
  · exact dcl
  · exact spe
  · exact spd
  · exact unl
  · exact mla _
  · exact unt
  · exact mta _
  · exact msa _
  · exact other _
  · exact esc
  · exact plus
  · exact leadingPlusPair
  · exact cr
  · exact lf
  · exact lit _
  · exact escaped _
  · exact discard _

end Sys2Proof.Laws.EncodedForm
end

