-- ==== Sys2Proof/Tests/Slice0.lean ====
section
/-!
SUPPORT. Tests.  Expected values are read off the tables and rules of spec/ cited in each comment, never off the model.
First the checks of `WellFormed`, then a word for every constructor, then one step of every instruction, then a witness for
the hypotheses of every statement that has some.
-/

namespace Sys2Proof.Tests

open Sys2Proof Sys2Proof.Machine

/-! ### Well-formedness: an ill-formed term for each check -/

/-- R100: a group-trigger list has at most 15 entries. -/
theorem test_wf_group_trigger : (Instr.sendGroupTrigger (List.replicate 16 ⟨5#8, 0#8, false⟩)).wf = false := by decide

/-- R101: a burst has at least one byte. -/
theorem test_wf_burst : (Instr.rxBurst []).wf = false := by decide

/-- R91: 31 is no address of `MLA`, `MTA` or `MSA`. -/
theorem test_wf_address :
    (Instr.mla 31#8).wf = false ∧ (Instr.mta 31#8).wf = false ∧ (Instr.msa 31#8).wf = false := by decide

/-- R91, R93: a named code is not `Other`. -/
theorem test_wf_other : (Instr.other 0x01#8).wf = false ∧ (Instr.other 0x3F#8).wf = false := by decide

/-- R95: a special character is no literal. -/
theorem test_wf_lit : (Instr.lit 0x2B#8).wf = false ∧ (Instr.lit 0x0D#8).wf = false := by decide

/-! ### A word for every constructor -/

/-- The code bytes of R100; the operand bytes by log entry 2. -/
theorem test_decode_requests_bytes :
    decode .request [0x01#8, 0x41#8, 0x01#8] = .ok (.sendByte 0x41#8 true) ∧
    decode .request [0x02#8] = .ok .receiveByte ∧
    decode .request [0x03#8, 0x3F#8] = .ok (.sendCommand 0x3F#8) ∧
    decode .request [0x04#8, 0x01#8, 0x48#8, 0x49#8] = .ok (.sendData [0x48#8, 0x49#8] true) ∧
    decode .request [0x05#8, 0x01#8, 0x0A#8] = .ok (.receiveMessage .untilChar 0x0A#8) := by decide

theorem test_decode_requests_controller :
    decode .request [0x06#8, 0x05#8, 0x02#8, 0x01#8, 0x01#8] = .ok (.addressingSetup 5#8 2#8 true .receive) ∧
    decode .request [0x07#8, 0x05#8, 0x00#8, 0x00#8] = .ok (.readStatusByte 5#8 0#8 false) ∧
    decode .request [0x08#8] = .ok .sendIfc ∧
    decode .request [0x09#8, 0x05#8, 0x00#8, 0x00#8, 0x07#8, 0x02#8, 0x01#8] =
      .ok (.sendGroupTrigger [⟨5#8, 0#8, false⟩, ⟨7#8, 2#8, true⟩]) := by decide

theorem test_decode_requests_cycles :
    decode .request [0x0A#8] = .ok .popRecord ∧ decode .request [0x0B#8] = .ok .deviceCycle ∧
    decode .request [0x0C#8] = .ok .listenOnlyCycle ∧ decode .request [0x0D#8] = .ok .mainCycle := by decide

theorem test_decode_requests_modes :
    decode .request [0x0E#8, 0x01#8] = .ok (.setRole .device) ∧
    decode .request [0x0F#8, 0x01#8] = .ok (.setListenOnly true) ∧
    decode .request [0x10#8, 0x41#8] = .ok (.setStatus 0x41#8) ∧
    decode .request [0x11#8, 0x00#8] = .ok (.setSrq false) ∧
    decode .request [0x12#8, 0x03#8, 0xB8#8, 0x0B#8] = .ok (.setConfig (.timeoutMs 3000#16)) := by decide

/-- The code bytes of R101. -/
theorem test_decode_events :
    decode .request [0x80#8, 0x2B#8, 0x0D#8] = .ok (.rxBurst [0x2B#8, 0x0D#8]) ∧
    decode .request [0x81#8] = .ok .tick ∧
    decode .request [0x82#8, 0x02#8, 0x01#8, 0x00#8, 0x00#8, 0x00#8, 0x00#8, 0x00#8, 0x00#8, 0x01#8, 0x55#8] =
      .ok (.busDrive { BusDrive.none with atn := some true, dav := some false, dio := some 0x55#8 }) ∧
    decode .request [0x83#8] = .ok .reset := by decide

/-- The command codes of R91, bit 7 ignored (R221). -/
theorem test_decode_commands :
    decode (.command true) [0b00000001#8] = .ok .gtl ∧ decode (.command true) [0b00000100#8] = .ok .sdc ∧
    decode (.command true) [0b00001000#8] = .ok .get ∧ decode (.command true) [0b00010001#8] = .ok .llo ∧
    decode (.command true) [0b00010100#8] = .ok .dcl ∧ decode (.command true) [0b00011000#8] = .ok .spe ∧
    decode (.command true) [0b00011001#8] = .ok .spd ∧ decode (.command true) [0b10111111#8] = .ok .unl ∧
    decode (.command true) [0b01011111#8] = .ok .unt := by decide

/-- The address commands `0b01aaaaa`, `0b10aaaaa`, `0b11sssss` (R91), and `Other` (R93). -/
theorem test_decode_commands_address :
    decode (.command true) [0b00111110#8] = .ok (.mla 30#8) ∧ decode (.command true) [0b01000000#8] = .ok (.mta 0#8) ∧
    decode (.command true) [0b01100101#8] = .ok (.msa 5#8) ∧ decode (.command true) [0b01111111#8] = .ok (.other 0x7F#8) ∧
    decode (.command false) [0b10100101#8] = .ok (.other 0xA5#8) := by decide

/-- The link characters of R95 in the contexts of R122 to R131. -/
theorem test_decode_link :
    decode (.link .normal false .start) [0x1B#8] = .ok .esc ∧ decode (.link .normal false .body) [0x2B#8] = .ok .plus ∧
    decode (.link .normal false .onePlus) [0x2B#8] = .ok .leadingPlusPair ∧
    decode (.link .normal false .body) [0x0D#8] = .ok .cr ∧ decode (.link .normal false .body) [0x0A#8] = .ok .lf ∧
    decode (.link .normal false .start) [0x41#8] = .ok (.lit 0x41#8) ∧
    decode (.link .normal true .body) [0x1B#8] = .ok (.escaped 0x1B#8) ∧
    decode (.link .discard true .start) [0x0D#8] = .ok (.discard 0x0D#8) := by decide

/-! ### Small states -/

/-- A controller after boot (R343): idle, talk configuration, REN asserted. -/
def ctrl : State :=
  { State.reset with
    pc := [], rx := { Receiver.reset [] with enabled := true }, hs := { Handshake.reset with xcvr := .talk },
    drv := { Drives.released with ren := true } }

/-- A device after boot (R343): idle, listen configuration, NDAC asserted. -/
def dvc : State :=
  { ctrl with cfg := { ctrl.cfg with role := .device }, hs := Handshake.reset,
              drv := { Drives.released with ndac := true } }

/-- A listen-only device. -/
def lo : State := { dvc with cfg := { dvc.cfg with listenOnly := true } }

/-- A listening device with a status byte. -/
def lstn : State := { dvc with dev := ⟨true, false, false, 0x41#8⟩ }

/-- A device addressed to talk and armed for a serial poll. -/
def tlk : State := { dvc with dev := ⟨false, true, true, 0x41#8⟩ }

/-- One data record `A` in the ring (R62), at `rd = 0`. -/
def oneRecord : Receiver :=
  { Receiver.reset [(1, 0x01#8), (2, 0x41#8)] with head := 0x03#8, enabled := true }

/-- The outcome is a next state with property `p`. -/
def nextIs (o : Host.Outcome State Fault Refusal) (p : State → Bool) : Bool :=
  match o with
  | .next t => p t
  | .fault _ => false
  | .refused _ => false

/-- The outcome is a next state that recorded result `r` and went idle. -/
def returns (o : Host.Outcome State Fault Refusal) (r : Ret) : Bool :=
  nextIs o fun t => t.pc.isEmpty && t.out.results == [r]

/-! ### One step of every instruction -/

/-- Line `s1` (R155): talk configuration, NRFD and NDAC released. -/
theorem test_send_byte : nextIs (exec (.sendByte 0x41#8 true) dvc)
    (fun t => t.hs.xcvr == .talk && !t.drv.ndac && t.pc == [.sendByte 0x41#8 true .s2]) = true := by decide

/-- Line `r1` (R160): listen configuration. -/
theorem test_receive_byte : nextIs (exec .receiveByte ctrl)
    (fun t => t.hs.xcvr == .listen && t.pc == [.receiveByte .r2]) = true := by decide

/-- R180: ATN is asserted before the byte; in Device role `RoleViolation`. -/
theorem test_send_command : nextIs (exec (.sendCommand 0x14#8) ctrl) (fun t => t.drv.atn) = true ∧
    returns (exec (.sendCommand 0x14#8) dvc) (.err .roleViolation) = true := by decide

/-- R183: nothing to send is `Ok()` at once. -/
theorem test_send_data_empty : returns (exec (.sendData [] true) ctrl) .ok = true := by decide

/-- R98, R184: EOS mode 1 is CR, and the last byte carries EOI. -/
theorem test_send_data_eos : nextIs (exec (.sendData [] true) { ctrl with cfg := { ctrl.cfg with eosMode := 1#2 } })
    (fun t => t.pc == [.sendByte 0x0D#8 true .s1, .sendData [] true]) = true := by decide

/-- R185: it starts with a `RECEIVE_BYTE`. -/
theorem test_receive_message : nextIs (exec (.receiveMessage .untilEoi 0#8) ctrl)
    (fun t => t.pc == [.receiveByte .r1, .receiveMessage .untilEoi 0#8 .m1]) = true := by decide

/-- R202: SEND SETUP of pad 5 is UNL, MTA 0, MLA 5. -/
theorem test_addressing_setup : nextIs (exec (.addressingSetup 5#8 0#8 false .send) ctrl)
    (fun t => t.pc == [.sendCommand 0x3F#8 .c1, .addressingSetup [0x40#8, 0x25#8]]) = true := by decide

/-- R201: pad 31 and pad 0 are invalid. -/
theorem test_addressing_setup_invalid :
    returns (exec (.addressingSetup 31#8 0#8 false .send) ctrl) (.err .invalidAddress) = true ∧
    returns (exec (.addressingSetup 0#8 0#8 false .receive) ctrl) (.err .invalidAddress) = true := by decide

/-- R204: the poll of pad 5, sad 2 is UNL, MLA 0, SPE, MTA 5, MSA 2. -/
theorem test_read_status_byte : nextIs (exec (.readStatusByte 5#8 2#8 true) ctrl)
    (fun t => t.pc == [.sendCommand 0x3F#8 .c1,
      .readStatusByte 5#8 2#8 true (.p3 [0x20#8, 0x18#8, 0x45#8, 0x62#8])]) = true := by decide

/-- R208: IFC is asserted. -/
theorem test_send_ifc : nextIs (exec .sendIfc ctrl) (fun t => t.drv.ifc && !t.drv.atn) = true := by decide

/-- R210: the empty list is `Ok()`, and a list of bad addresses ends with the first error. -/
theorem test_send_group_trigger : returns (exec (.sendGroupTrigger []) ctrl) .ok = true ∧
    returns (exec (.sendGroupTrigger [⟨31#8, 0#8, false⟩]) ctrl) (.err .invalidAddress) = true := by decide

/-- R132: `None` on an empty buffer. -/
theorem test_pop_record_empty : returns (exec .popRecord ctrl) .noRecord = true := by decide

set_option maxRecDepth 4000 in
/-- R132: the record `00 01 41`, zeros after it, and `rd` past it. -/
theorem test_pop_record : nextIs (exec .popRecord { ctrl with rx := oneRecord })
    (fun t => t.rx.rd == 0x03#8 &&
      t.out.results == [.record ([0x00#8, 0x01#8, 0x41#8] ++ List.replicate 253 0x00#8)]) = true := by decide

/-- R252: IFC is sampled first, and `ifc_reset()` begins whatever else is asserted; R251: its first line clears the
flags. -/
theorem test_device_cycle :
    nextIs (exec .deviceCycle { lstn with rem := { Drives.released with ifc := true, atn := true, dav := true } })
      (fun t => t.pc == [.devClear .e1, .deviceCycle .v5] && t.dev == lstn.dev) = true ∧
    nextIs (step { lstn with pc := [.devClear .e1, .deviceCycle .v5] })
      (fun t => t.dev == ⟨false, false, false, 0x41#8⟩) = true := by decide

/-- R270: the listen configuration, then the talker lines, then the idle acceptor lines. -/
theorem test_listen_only_cycle :
    nextIs (exec .listenOnlyCycle { lo with hs := { lo.hs with xcvr := .talk } })
      (fun t => t.hs.xcvr == .listen && t.pc == [.listenOnlyCycle .l1Talker]) = true ∧
    nextIs (step { lo with pc := [.listenOnlyCycle .l1Acceptor], drv := { Drives.released with nrfd := true } })
      (fun t => !t.drv.nrfd && t.drv.ndac && t.pc == [.listenOnlyCycle .l2]) = true := by decide

/-- R280 line `k1`: the record is popped. -/
theorem test_main_cycle : nextIs (exec .mainCycle { ctrl with rx := oneRecord })
    (fun t => t.rx.rd == 0x03#8 && t.pc == [.mainCycle (.k2 (some ⟨0x00#8, 0x01#8, [0x41#8]⟩))]) = true := by decide

/-- R255: the first line writes `role` and no drive; the line of Device role releases REN and holds NDAC. -/
theorem test_set_role :
    nextIs (exec (.setRole .device) ctrl) (fun t => t.cfg.role == .device && t.drv == ctrl.drv) = true ∧
    nextIs (step { ctrl with pc := [.setRole .device .t5] })
      (fun t => t.hs.xcvr == .listen && t.drv == { Drives.released with ndac := true }) = true := by decide

/-- R257: the first line writes `listen_only`; the second clears the flags and SRQ, and in Device role the listener lines
follow. -/
theorem test_set_listen_only :
    nextIs (exec (.setListenOnly true) tlk) (fun t => t.cfg.listenOnly && t.dev == tlk.dev) = true ∧
    nextIs (step { tlk with pc := [.setListenOnly true .n2], drv := { tlk.drv with srq := true } })
      (fun t => t.dev == ⟨false, false, false, 0x00#8⟩ && !t.drv.srq && t.pc == [.setListenOnly true .n3]) = true := by
  decide

/-- R256. -/
theorem test_set_status : nextIs (exec (.setStatus 0x55#8) ctrl) (fun t => t.dev.status == 0x55#8) = true := by decide

/-- R258. -/
theorem test_set_srq : nextIs (exec (.setSrq true) dvc) (fun t => t.drv.srq) = true ∧
    returns (exec (.setSrq true) ctrl) (.err .roleViolation) = true := by decide

/-- R51: 3000 ms is legal and 3001 ms is not. -/
theorem test_set_config :
    nextIs (exec (.setConfig (.timeoutMs 3000#16)) ctrl) (fun t => t.cfg.timeoutMs == 3000#16) = true ∧
    nextIs (exec (.setConfig (.timeoutMs 3001#16)) ctrl)
      (fun t => t.cfg.timeoutMs == 1000#16 && t.out.results == [.err .invalidConfig]) = true := by decide

/-- R51: EOS code 4 is out of range. -/
theorem test_set_config_eos : returns (exec (.setConfig (.eosMode 4#8)) ctrl) (.err .invalidConfig) = true := by decide

/-- R120, R130: `A`, CR make the record `00 01 41`, and the byte after the terminator is dropped. -/
theorem test_rx_burst : nextIs (exec (.rxBurst [0x41#8, 0x0D#8, 0x42#8]) ctrl)
    (fun t => t.rx == oneRecord) = true := by decide

/-- R124: `++a`, LF is a command record with three bytes. -/
theorem test_rx_burst_command : nextIs (exec (.rxBurst [0x2B#8, 0x2B#8, 0x61#8, 0x0A#8]) ctrl)
    (fun t => t.rx.oldest == some ⟨0x01#8, 0x03#8, [0x2B#8, 0x2B#8, 0x61#8]⟩) = true := by decide

/-- R306: the count saturates, and is lost while `tick_en` is false. -/
theorem test_tick :
    nextIs (exec .tick { ctrl with hs := { ctrl.hs with tickEn := true, tmoCnt := 0xFFFF#16 } })
      (fun t => t.hs.tmoCnt == 0xFFFF#16) = true ∧
    nextIs (exec .tick ctrl) (fun t => t.hs.tmoCnt == 0#16) = true := by decide

/-- R307: the lines named move, the others stay. -/
theorem test_bus_drive : nextIs (exec (.busDrive { BusDrive.none with dav := some true, dio := some 0x55#8 })
    { ctrl with rem := { Drives.released with srq := true } })
    (fun t => t.rem == { Drives.released with srq := true, dav := true, dio := 0x55#8 }) = true := by decide

/-- R340: cursors at zero, the sequencer at boot, the environment's drives kept. -/
theorem test_reset : nextIs (exec .reset { ctrl with rx := oneRecord, rem := { Drives.released with srq := true } })
    (fun t => t.rx.head == 0x00#8 && t.pc == [.boot .b1] && t.rem.srq && !t.drv.ren) = true := by decide

/-- R247: observed only while listening. -/
theorem test_gtl : nextIs (exec .gtl lstn) (fun t => t.out.devEvent == [.gtl]) = true ∧
    nextIs (exec .gtl dvc) (fun t => t.out.devEvent == []) = true := by decide

/-- R245: `SDC` begins `dev_clear()` on a listening device only. -/
theorem test_sdc : nextIs (exec .sdc lstn) (fun t => !t.dev.listening && t.pc == [.devClear .e2]) = true ∧
    nextIs (exec .sdc tlk) (fun t => t.dev == tlk.dev) = true := by decide

theorem test_get : nextIs (exec .get lstn) (fun t => t.out.devEvent == [.get]) = true := by decide

theorem test_llo : nextIs (exec .llo lstn) (fun t => t.out.devEvent == [.llo]) = true := by decide

/-- R245: `DCL` begins `dev_clear()` on every device; its last line releases SRQ. -/
theorem test_dcl : nextIs (exec .dcl tlk) (fun t => t.dev == ⟨false, false, false, 0x41#8⟩ && t.pc == [.devClear .e2]) = true ∧
    nextIs (step { tlk with pc := [.devClear .e3, .deviceCycle .v5], drv := { tlk.drv with srq := true } })
      (fun t => !t.drv.srq && t.pc == [.deviceCycle .v5]) = true := by decide

theorem test_spe : nextIs (exec .spe dvc) (fun t => t.dev.spArmed) = true := by decide

theorem test_spd : nextIs (exec .spd tlk) (fun t => !t.dev.spArmed && t.dev.talking) = true := by decide

theorem test_unl : nextIs (exec .unl lstn) (fun t => !t.dev.listening && t.dev.status == 0x41#8) = true := by decide

/-- R242: the own address (5) makes a listener of a talker; another changes nothing. -/
theorem test_mla : nextIs (exec (.mla 5#8) tlk) (fun t => t.dev.listening && !t.dev.talking) = true ∧
    nextIs (exec (.mla 6#8) tlk) (fun t => t.dev == tlk.dev) = true := by decide

theorem test_unt : nextIs (exec .unt tlk) (fun t => !t.dev.talking && t.dev.spArmed) = true := by decide

/-- R243: another talker's address unaddresses this one and leaves a listener alone. -/
theorem test_mta : nextIs (exec (.mta 6#8) tlk) (fun t => !t.dev.talking) = true ∧
    nextIs (exec (.mta 5#8) lstn) (fun t => t.dev.talking && !t.dev.listening) = true := by decide

theorem test_msa : nextIs (exec (.msa 5#8) lstn) (fun t => t == lstn) = true := by decide

theorem test_other : nextIs (exec (.other 0x7F#8) lstn) (fun t => t == lstn) = true := by decide

/-- R122. -/
theorem test_esc : nextIs (exec .esc ctrl) (fun t => t.rx.esc && t.rx.len == 0x00#8 && t.rx.lead == .body) = true := by decide

/-- R123: a first `+` is held, a `+` in the body is dropped. -/
theorem test_plus : nextIs (exec .plus ctrl) (fun t => t.rx.lead == .onePlus && t.rx.len == 0x00#8) = true ∧
    nextIs (exec .plus { ctrl with rx := { ctrl.rx with lead := .body } }) (fun t => t.rx.len == 0x00#8) = true := by
  decide

/-- R124: both bytes are stored behind the header. -/
theorem test_leading_plus_pair : nextIs (exec .leadingPlusPair { ctrl with rx := { ctrl.rx with lead := .onePlus } })
    (fun t => t.rx.cmd && t.rx.len == 0x02#8 && t.rx.memRead 0x02#8 == 0x2B#8 && t.rx.memRead 0x03#8 == 0x2B#8) = true := by
  decide

/-- R127: header `01 00` of an empty command record, and `head` past it. -/
theorem test_cr : nextIs (exec .cr { ctrl with rx := { ctrl.rx with cmd := true } })
    (fun t => t.rx.head == 0x02#8 && t.rx.memRead 0x00#8 == 0x01#8 && !t.rx.cmd) = true := by decide

/-- R127: with 254 bytes used the empty record does not fit. -/
theorem test_lf : nextIs (exec .lf { ctrl with rx := { ctrl.rx with head := 0xFE#8 } })
    (fun t => t.rx.head == 0xFE#8) = true := by decide

/-- R131. -/
theorem test_lit : nextIs (exec (.lit 0x41#8) ctrl)
    (fun t => t.rx.len == 0x01#8 && t.rx.memRead 0x02#8 == 0x41#8 && t.rx.lead == .body) = true := by decide

/-- R125: with no room left the line is discarded. -/
theorem test_lit_collides : nextIs (exec (.lit 0x41#8) { ctrl with rx := { ctrl.rx with head := 0xFD#8 } })
    (fun t => t.rx.mode == .discard && t.rx.len == 0x00#8) = true := by decide

/-- R126: an escaped CR is stored. -/
theorem test_escaped : nextIs (exec (.escaped 0x0D#8) { ctrl with rx := { ctrl.rx with esc := true, lead := .body } })
    (fun t => !t.rx.esc && t.rx.len == 0x01#8 && t.rx.memRead 0x02#8 == 0x0D#8) = true := by decide

/-- R129: an unescaped LF ends the discarded line, an escaped one does not. -/
theorem test_discard :
    nextIs (exec (.discard 0x0A#8) { ctrl with rx := { ctrl.rx with mode := .discard } })
      (fun t => t.rx.mode == .normal && t.rx.head == 0x00#8) = true ∧
    nextIs (exec (.discard 0x0A#8) { ctrl with rx := { ctrl.rx with mode := .discard, esc := true } })
      (fun t => t.rx.mode == .discard && !t.rx.esc) = true := by decide

/-- A table word runs as the first instruction: `SEND_IFC` (code 0x08), `UNL` (0x3F), ESC (0x1B). -/
theorem test_fetch_word :
    nextIs (step (State.reset.withFetchWord 8 0x08)) (fun t => t.drv.ifc) = true ∧
    nextIs (step (State.reset.withFetchWord 8 0x3F)) (fun t => t.pc == [.deviceCycle .v5]) = true ∧
    nextIs (step (State.reset.withFetchWord 8 0x1B)) (fun t => t.rx.esc) = true := by decide

/-- R342: boot's first line loads the configuration; R7: with `RX_BURST_MAX` 0 there is no launch. -/
theorem test_boot : nextIs (step State.reset) (fun t => t.cfg.timeoutMs == 1000#16 && t.pc == [.boot .b2]) = true ∧
    step { State.reset with par := ⟨0, true⟩ } = .refused .launchRefused := ⟨by decide, rfl⟩

/-- R315: where nothing else can end a `WAIT`, a tick comes; R150: with the condition met it polls and ends. -/
theorem test_tick_due :
    (let s : State := { ctrl with pc := [.wait .davAsserted .w4, .receiveByte .r4], hs := { ctrl.hs with tickEn := true } }
     nextIs (step s) (fun t => t.hs.tmoCnt == 1#16 && t.pc == s.pc) = true) ∧
    nextIs (step { ctrl with pc := [.wait .davAsserted .w4, .receiveByte .r4], hs := { ctrl.hs with tickEn := true },
                             rem := { Drives.released with dav := true } })
      (fun t => t.hs.tmoCnt == 0#16 && t.pc == [.wait .davAsserted .w3, .receiveByte .r4]) = true := by decide

/-! ### Witnesses: states and operands that meet the hypotheses of a statement together -/

/-- Every limit of `wf` met at its edge. -/
theorem witness_DecodeEncodeRoundTrip :
    (Instr.sendGroupTrigger (List.replicate 15 ⟨30#8, 30#8, true⟩)).wf = true ∧ (Instr.rxBurst [0xFF#8]).wf = true ∧
    (Instr.mla 30#8).wf = true ∧ (Instr.mta 0#8).wf = true ∧ (Instr.msa 30#8).wf = true ∧
    (Instr.other 0x7F#8).wf = true ∧ (Instr.other 0x80#8).wf = true ∧ (Instr.other 0x00#8).wf = true ∧
    (Instr.lit 0xFF#8).wf = true := by decide

theorem witness_AcceptedMessagesAreEncodings : decodeMessage [0x08#8] = .ok .sendIfc := by decide

/-- Codes at the edges of the two tables, and the smallest enumeration codes out of range. -/
theorem witness_UndefinedMessagesRefused :
    (∀ code ∈ [0x00#8, 0x13#8, 0x7F#8, 0x84#8, 0xFF#8],
      ¬ (0x01 ≤ code.toNat ∧ code.toNat ≤ 0x12) ∧ ¬ (0x80 ≤ code.toNat ∧ code.toNat ≤ 0x83)) ∧
    2 < (3#8).toNat ∧ 1 < (2#8).toNat ∧ 15 < (List.replicate 16 (⟨1#8, 0#8, false⟩ : Target)).length ∧
    { ctrl with inbox := [.message [0x13#8]] }.inbox = .message [0x13#8] :: [] ∧
    decodeMessage [0x13#8] = .error (.undefinedCode 0x13#8) := by decide

/-- Bytes on both sides of bit 7, for both decoders. -/
theorem witness_CommandByteDecoding :
    (false = false ∧ 0x80 ≤ (0x80#8).toNat) ∧ (false = true ∨ (0x7F#8).toNat < 0x80) ∧ (true = true ∨ (0xFF#8).toNat < 0x80) := by
  decide

/-- A message that is taken, one that waits, a pass, an empty schedule, with a tick owed and without; a line, an idle block,
a byte under ATN, a burst. -/
theorem witness_StepRunsDecodedInstruction :
    (decode .request [0x81#8] = .ok .tick ∧ State.reset.admits .tick = true) ∧
    (decode .request [0x08#8] = .ok .sendIfc ∧ State.reset.admits .sendIfc = false) ∧
    { ctrl with inbox := [.pass] }.inbox = .pass :: [] ∧ State.reset.inbox = [] ∧ State.reset.pc = .boot .b1 :: [] ∧
    ctrl.pc = [] ∧
    (let s : State := { dvc with pc := [.deviceCycle .v2Ret], ret := .okByteEoi 0x25#8 false }
     s.pc = .deviceCycle .v2Ret :: [] ∧ s.ret = .okByteEoi 0x25#8 false) ∧
    (let s : State := { ctrl with pc := [.wait .davAsserted .w4], hs := { ctrl.hs with tickEn := true } }
     s.inbox = [] ∧ s.tickDue = true ∧ ({ s with inbox := [.message [0x08#8]] } : State).tickDue = true ∧
       ({ s with inbox := [.message [0x08#8]] } : State).admits .sendIfc = false) ∧
    State.reset.tickDue = false ∧
    1 ≤ { ctrl with par := ⟨1, true⟩ }.par.rxBurstMax := by decide

theorem witness_RequestsNeedIdleBlock :
    Instr.kind .popRecord = .request ∧ State.reset.pc ≠ [] ∧ ctrl.pc = [] := by decide

/-- Bursts of `RX_BURST_MAX` bytes and of one more. -/
theorem witness_BurstInOrderUpToTerminator :
    let s : State := { ctrl with par := ⟨2, true⟩ }
    [0x41#8, 0x0D#8].length ≤ s.par.rxBurstMax ∧ s.par.rxBurstMax < [0x41#8, 0x0D#8, 0x41#8].length := by decide

/-- The three values of the lookahead, and a first `+` that is stored or that collides. -/
theorem witness_EscapeAndPlusRules :
    ctrl.rx.lead = .start ∧ { ctrl.rx with lead := .body }.lead = .body ∧ { ctrl.rx with lead := .onePlus }.lead = .onePlus ∧
    (Receiver.store { ctrl.rx with lead := .body } 0x2B#8).mode = .normal ∧
    (Receiver.store { ctrl.rx with lead := .body, head := 0xFD#8 } 0x2B#8).mode = .discard := by decide

/-- The two sides of the collision check (R125), and a full record (R128). -/
theorem witness_LiteralAndEscapedStored :
    { ctrl.rx with head := 0xFC#8 }.used + 2 + 0 + 1 ≤ 255 ∧ { ctrl.rx with head := 0xFD#8 }.used + 2 + 0 + 1 > 255 ∧
    { ctrl.rx with len := 253#8 }.len.toNat = 253 := by decide

/-- An empty buffer, and a record of the greatest length. -/
theorem witness_PopRecordRule :
    (ctrl.pc = [] ∧ ctrl.rx.rd = ctrl.rx.head) ∧
    (let s : State := { ctrl with rx := { ctrl.rx with ring := [(1, 253#8)], head := 0xFF#8 } }
     s.pc = [] ∧ s.rx.rd ≠ s.rx.head ∧ s.rx.memRead (s.rx.rd + 1#8) = 253#8 ∧ (253#8).toNat ≤ 253) := by decide

/-- The receiver with one unread record and a byte in progress: each clause has a byte that meets it. -/
theorem witness_RecordsFirstInFirstOut :
    Memory.wf oneRecord.ring = true ∧ oneRecord.ok ∧ oneRecord.records = some [⟨0x00#8, 0x01#8, [0x41#8]⟩] ∧
    classify oneRecord.mode oneRecord.esc oneRecord.lead 0x0D#8 = .cr ∧ oneRecord.fits = true ∧
    classify oneRecord.mode oneRecord.esc oneRecord.lead 0x42#8 = .lit 0x42#8 ∧ oneRecord.len.toNat < 253 ∧
    oneRecord.collides = false ∧
    (Receiver.reset []).records = some [] ∧ Memory.wf (Receiver.reset []).ring = true ∧ (Receiver.reset []).ok := by
  unfold Receiver.ok; decide

theorem witness_BurstLeavesUnreadRecords :
    oneRecord.ok ∧ oneRecord.occupied 0x02#8 ∧
    ∃ t, exec (.rxBurst [0x42#8]) { ctrl with rx := oneRecord } = .next t := by
  refine ⟨?_, ?_, _, rfl⟩
  · unfold Receiver.ok; decide
  · unfold Receiver.occupied; decide

theorem witness_ReceiverInvariantKept :
    let s : State := { ctrl with rx := oneRecord, inbox := [.message [0x80#8, 0x42#8]] }
    s.receiverOk ∧ ∃ t, step s = .next t := by
  refine ⟨⟨by decide, ?_, by decide⟩, _, rfl⟩
  unfold Receiver.ok; decide

/-- Each line; and a `WAIT` that polls with the counter at its bound, for both outcomes. -/
theorem witness_WaitLines :
    (∀ l ∈ [WaitLine.w1, .w2, .w3, .w4],
      { ctrl with pc := [.wait .davAsserted l, .receiveByte .r4] }.pc = .wait .davAsserted l :: .receiveByte .r4 :: []) ∧
    (let s : State := { ctrl with pc := [.wait .davReleased .w4, .receiveByte .r8], cfg := { ctrl.cfg with timeoutMs := 3000#16 },
                                  hs := { ctrl.hs with tickEn := true, tmoCnt := 3000#16 } }
     (s.pc = .wait .davReleased .w3 :: .receiveByte .r8 :: [] ∨ s.pc = .wait .davReleased .w4 :: .receiveByte .r8 :: []) ∧
       s.inbox = [] ∧ s.hs.tickEn = true ∧ s.cfg.timeoutMs.toNat ≤ 3000 ∧ s.hs.tmoCnt.toNat ≤ s.cfg.timeoutMs.toNat ∧
       WaitCond.davReleased.holds s.bus = true ∧
       WaitCond.davReleased.holds ({ s with rem := { Drives.released with dav := true } } : State).bus = false) := by
  decide

theorem witness_SendByteCompletes : ctrl.pc = [] ∧ ctrl.talkerOk ∧ ctrl.silent := ⟨rfl, rfl, rfl, rfl⟩

/-- A listener that holds NDAC, at the first poll and after three. -/
theorem witness_SendByteToListener : ∀ polls ∈ [0, 3],
    let s : State := { ctrl with rem := { Drives.released with ndac := true }, inbox := listenerByte polls ++ [.pass] }
    s.pc = [] ∧ s.talkerOk ∧ s.rem.nrfd = false ∧ s.rem.ndac = true ∧ s.inbox = listenerByte polls ++ [.pass] :=
  fun _ _ => ⟨rfl, rfl, rfl, rfl, rfl⟩

/-- Both acceptor lines held by another device; NDAC held, with `timeout_ms` 2 and 3 ticks; and NRFD held, with `timeout_ms` 2: no tick, 2 ticks, 3 ticks. -/
theorem witness_SendByteNeverReady :
    (let s : State := { ctrl with rem := { Drives.released with nrfd := true, ndac := true } }
     s.pc = [] ∧ s.inbox = [] ∧ s.rem.nrfd = true ∧ s.rem.ndac = true) ∧
    (let s : State := { ctrl with rem := { Drives.released with ndac := true }, cfg := { ctrl.cfg with timeoutMs := 2#16 },
                                  inbox := passes 10 ++ ticks 3 ++ passes 3 ++ [] }
     s.pc = [] ∧ s.talkerOk ∧ s.rem.nrfd = false ∧ s.rem.ndac = true ∧ s.cfg.timeoutMs.toNat ≤ 3000 ∧
       s.inbox = passes 10 ++ ticks (s.cfg.timeoutMs.toNat + 1) ++ passes 3 ++ []) ∧
    (∀ items ∈ [passes 4 ++ ticks 0 ++ passes 2, passes 4 ++ ticks 2 ++ passes 2, passes 4 ++ ticks (2 + 1) ++ passes 3],
      let s : State := { ctrl with rem := { Drives.released with nrfd := true }, cfg := { ctrl.cfg with timeoutMs := 2#16 },
                                   inbox := items }
      s.pc = [] ∧ s.talkerOk ∧ s.rem.nrfd = true ∧ s.rem.ndac = false ∧ s.cfg.timeoutMs.toNat ≤ 3000 ∧
        s.cfg.timeoutMs.toNat = 2 ∧ s.inbox = items ++ []) :=
  ⟨⟨rfl, rfl, rfl, rfl⟩, ⟨rfl, rfl, rfl, rfl, (by decide : (2#16).toNat ≤ 3000), rfl⟩, fun items _ => ⟨rfl, rfl, rfl, rfl, (by decide : (2#16).toNat ≤ 3000), rfl, (List.append_nil items).symm⟩⟩

theorem witness_ReceiveByteCompletes :
    let s : State := { ctrl with inbox := (talkerByte 0x41#8 true 4).tail ++ [.pass] }
    s.pc = [] ∧ s.noTalker ∧ s.inbox = (talkerByte 0x41#8 true 4).tail ++ [.pass] := ⟨rfl, ⟨rfl, rfl, rfl⟩, rfl⟩

/-- No DAV, and DAV held, at `timeout_ms` 3000 and 0. -/
theorem witness_ReceiveByteTimeouts :
    (let s : State := { ctrl with cfg := { ctrl.cfg with timeoutMs := 3000#16 },
                                  inbox := passes 4 ++ ticks 3001 ++ passes 3 ++ [] }
     s.pc = [] ∧ s.cfg.timeoutMs.toNat ≤ 3000 ∧ s.rem.dav = false ∧
       s.inbox = passes 4 ++ ticks (s.cfg.timeoutMs.toNat + 1) ++ passes 3 ++ []) ∧
    (let s : State := { ctrl with cfg := { ctrl.cfg with timeoutMs := 0#16 }, rem := { Drives.released with dav := true },
                                  inbox := passes 11 ++ ticks 1 ++ passes 3 ++ [] }
     s.pc = [] ∧ s.cfg.timeoutMs.toNat ≤ 3000 ∧ s.rem.dav = true ∧
       s.inbox = passes 11 ++ ticks (s.cfg.timeoutMs.toNat + 1) ++ passes 3 ++ []) :=
  ⟨⟨rfl, by decide, rfl, rfl⟩, rfl, by decide, rfl, rfl⟩

/-- A byte on the bus at line `s8` of `SEND_BYTE`. -/
def sending : State :=
  { ctrl with pc := [.sendByte 0x41#8 true .s8], drv := { ctrl.drv with dav := true, eoi := true, dio := 0x41#8 } }

/-- A byte accepted at line `r9` of `RECEIVE_BYTE`. -/
def receiving : State := { dvc with pc := [.receiveByte .r9], drv := { Drives.released with nrfd := true } }

theorem witness_HandshakeLinesInvariant :
    (nested sending.pc = true ∧ sending.talkerOk ∧ ∃ t, step sending = .next t) ∧
    (nested receiving.pc = true ∧ receiving.acceptorOk ∧ ∃ t, step receiving = .next t) :=
  ⟨⟨by decide, rfl, _, rfl⟩, by decide, by unfold State.acceptorOk; decide, _, rfl⟩

theorem witness_SendCommandCompletes : ctrl.pc = [] ∧ ctrl.talkerOk ∧ ctrl.silent ∧ ctrl.cfg.role = .controller :=
  ⟨rfl, rfl, ⟨rfl, rfl⟩, rfl⟩

theorem witness_SendDataCompletes : dvc.pc = [] ∧ dvc.talkerOk ∧ dvc.silent := ⟨rfl, rfl, rfl, rfl⟩

/-- A byte that does not end the message and one that does, for the two modes a byte can end. -/
theorem witness_ReceiveMessageCompletes :
    (let s : State := { ctrl with inbox := talkerMessage ([(0x42#8, false)] ++ [(0x42#8, true)]) ++ passes 1 ++ [] }
     s.pc = [] ∧ s.noTalker ∧ (∀ x ∈ [(0x42#8, false)], messageEnd .untilEoi 0x42#8 x.1 x.2 = none) ∧
       messageEnd .untilEoi 0x42#8 0x42#8 true = some .eoi ∧
       s.inbox = talkerMessage ([(0x42#8, false)] ++ [(0x42#8, true)]) ++ passes 1 ++ []) ∧
    (let s : State := { ctrl with inbox := talkerMessage ([(0x41#8, true)] ++ [(0x42#8, false)]) ++ passes 1 ++ [] }
     s.pc = [] ∧ s.noTalker ∧ (∀ x ∈ [(0x41#8, true)], messageEnd .untilChar 0x42#8 x.1 x.2 = none) ∧
       messageEnd .untilChar 0x42#8 0x42#8 false = some .stopChar ∧
       s.inbox = talkerMessage ([(0x41#8, true)] ++ [(0x42#8, false)]) ++ passes 1 ++ []) :=
  ⟨⟨rfl, ⟨rfl, rfl, rfl⟩, by simp [messageEnd], rfl, rfl⟩, rfl, ⟨rfl, rfl, rfl⟩, by simp [messageEnd], rfl, rfl⟩

/-- One byte received and then none, in the mode that only a timeout ends. -/
theorem witness_ReceiveMessageTimesOut :
    let s : State := { ctrl with cfg := { ctrl.cfg with timeoutMs := 2#16 },
                                 inbox := talkerMessage [(0x41#8, true)] ++ passes 5 ++ ticks 3 ++ passes 5 ++ [] }
    s.pc = [] ∧ s.noTalker ∧ s.cfg.timeoutMs.toNat ≤ 3000 ∧
      (∀ x ∈ [(0x41#8, true)], messageEnd .untilTimeout 0x00#8 x.1 x.2 = none) ∧
      s.inbox = talkerMessage [(0x41#8, true)] ++ passes 5 ++ ticks (s.cfg.timeoutMs.toNat + 1) ++ passes 5 ++ [] :=
  ⟨rfl, ⟨rfl, rfl, rfl⟩, (by decide : (2#16).toNat ≤ 3000), by simp [messageEnd], rfl⟩

/-- Each calling line with an error returned to it: as a request, and as it is called; and a group trigger whose next entry
is legal, and illegal in each way. -/
theorem witness_FirstErrorEndsOperation :
    (∀ f ∈ [Frame.sendData [] true, .addressingSetup [0x25#8], .readStatusByte 5#8 0#8 false .p4, .sendCommand 0x14#8 .c3,
        .receiveMessage .untilEoi 0x00#8 .m1, .groupTrigger [] (some .invalidAddress) .addressing],
      let s : State := { ctrl with pc := f :: [], ret := .err .handshakeTimeout }
      s.ret = .err .handshakeTimeout ∧ s.pc = f :: []) ∧
    (∀ pc ∈ [[Frame.sendData [] true, .mainCycle .k2Ret], [Frame.addressingSetup [0x25#8], .groupTrigger [] none .addressing],
        [Frame.sendCommand 0x14#8 .c3, .addressingSetup []], [Frame.receiveMessage .untilEoi 0x00#8 .m1, .deviceCycle .v4Ret]],
      nested pc = true) ∧
    (∀ x ∈ [(⟨0#8, 0#8, false⟩ : Target), ⟨31#8, 0#8, false⟩, ⟨5#8, 31#8, true⟩],
      let s : State := { ctrl with pc := .groupTrigger [x] none .trigger :: [], ret := .err .busContention }
      s.pc = .groupTrigger [x] none .trigger :: [] ∧ s.cfg.role = .controller ∧
        (x.pad.toNat < 1 ∨ 30 < x.pad.toNat ∨ (x.useSad = true ∧ 30 < x.sad.toNat))) ∧
    (let s : State := { ctrl with pc := .groupTrigger [⟨1#8, 30#8, true⟩] none .trigger :: [], ret := .err .busContention }
     s.pc = .groupTrigger [⟨1#8, 30#8, true⟩] none .trigger :: [] ∧ s.cfg.role = .controller ∧ 1 ≤ (1#8).toNat ∧
       (1#8).toNat ≤ 30 ∧ (true = true → (30#8).toNat ≤ 30)) ∧
    { dvc with pc := [.mainCycle (.k2Byte [])] }.pc = .mainCycle (.k2Byte []) :: [] ∧
    { ctrl with pc := [.mainCycle .k2Ret] }.pc = .mainCycle .k2Ret :: [] := by
  refine ⟨fun _ _ => ⟨rfl, rfl⟩, by decide, by decide, by decide, rfl, rfl⟩

theorem witness_RoleChecks :
    (dvc.pc = [] ∧ dvc.cfg.role = .device ∧ dvc.cfg.listenOnly = false) ∧ (ctrl.pc = [] ∧ ctrl.cfg.role = .controller) ∧
    (lo.pc = [] ∧ lo.cfg.listenOnly = true) := by decide

/-- Each way an address can be out of range, at its edge. -/
theorem witness_InvalidAddressNoTraffic :
    ctrl.pc = [] ∧ ctrl.cfg.role = .controller ∧ (0#8).toNat < 1 ∧ 30 < (31#8).toNat ∧
    (true = true ∧ 30 < (31#8).toNat) := by decide

theorem witness_AddressingSetupCompletes :
    ctrl.pc = [] ∧ ctrl.talkerOk ∧ ctrl.silent ∧ ctrl.cfg.role = .controller ∧ 1 ≤ (1#8).toNat ∧ (30#8).toNat ≤ 30 ∧
      (true = true → (30#8).toNat ≤ 30) ∧ (false = true → (31#8).toNat ≤ 30) :=
  ⟨rfl, rfl, ⟨rfl, rfl⟩, rfl, by decide, by decide, by decide, by decide⟩

theorem witness_ReadStatusByteCompletes :
    let seq : List Byte := [0x3F#8, 0x20#8, 0x18#8, 0x40#8 + 30#8] ++ [0x60#8 + 30#8]
    let s : State := { ctrl with inbox := passes (19 * seq.length) ++ talkerByte 0x47#8 true 43 ++ [] }
    s.pc = [] ∧ s.talkerOk ∧ s.rem = Drives.released ∧ s.cfg.role = .controller ∧ 1 ≤ (30#8).toNat ∧ (30#8).toNat ≤ 30 ∧
      (true = true → (30#8).toNat ≤ 30) ∧ s.inbox = passes (19 * seq.length) ++ talkerByte 0x47#8 true 43 ++ [] :=
  ⟨rfl, rfl, rfl, rfl, by decide, by decide, by decide, rfl⟩

theorem witness_SendIfcCompletes : ctrl.pc = [] ∧ ctrl.inbox = [] ∧ ctrl.cfg.role = .controller := by decide

/-- A list with a good entry between two bad ones is one of the lists the statement is about. -/
theorem witness_GroupTriggerCompletes :
    ctrl.pc = [] ∧ ctrl.talkerOk ∧ ctrl.silent ∧ ctrl.cfg.role = .controller ∧
    ([⟨31#8, 0#8, false⟩, ⟨30#8, 30#8, true⟩, ⟨1#8, 31#8, true⟩].filter fun x : Target =>
      decide (1 ≤ x.pad.toNat ∧ x.pad.toNat ≤ 30 ∧ (x.useSad = true → x.sad.toNat ≤ 30))) = [⟨30#8, 30#8, true⟩] :=
  ⟨rfl, rfl, ⟨rfl, rfl⟩, rfl, by decide⟩

/-- The lines of `dev_clear()` after its first, and a state whose schedule is used up. -/
theorem witness_CommandTransitions :
    { lstn with pc := [.devClear .e2, .deviceCycle .v5] }.pc = .devClear .e2 :: .deviceCycle .v5 :: [] ∧
    { lstn with pc := [.devClear .e3, .deviceCycle .v5] }.pc = .devClear .e3 :: .deviceCycle .v5 :: [] ∧
    lstn.inbox = [] := by decide

theorem witness_InterfaceClearResetsDevice :
    let s : State := { lstn with rem := { Drives.released with ifc := true } }
    s.inbox = [] ∧ s.pc = [] ∧ s.cfg.role = .device ∧ s.cfg.listenOnly = false ∧ s.bus.ifc = true := by decide

/-- A command byte with EOI; and ATN with no byte, at `timeout_ms` 3000. -/
theorem witness_DeviceCycleAppliesCommand :
    (let s : State := { dvc with rem := { Drives.released with atn := true },
                                 inbox := passes 1 ++ talkerByte 0x25#8 true 5 ++ [] }
     s.pc = [] ∧ s.cfg.role = .device ∧ s.cfg.listenOnly = false ∧ s.bus.ifc = false ∧ s.rem.atn = true ∧ s.noTalker ∧
       s.inbox = passes 1 ++ talkerByte 0x25#8 true 5 ++ []) ∧
    (let s : State := { dvc with rem := { Drives.released with atn := true }, cfg := { dvc.cfg with timeoutMs := 3000#16 },
                                 inbox := passes 6 ++ ticks 3001 ++ passes 5 ++ [] }
     s.pc = [] ∧ s.cfg.role = .device ∧ s.cfg.listenOnly = false ∧ s.bus.ifc = false ∧ s.rem.atn = true ∧
       s.rem.dav = false ∧ s.cfg.timeoutMs.toNat ≤ 3000 ∧
       s.inbox = passes 6 ++ ticks (s.cfg.timeoutMs.toNat + 1) ++ passes 5 ++ []) :=
  ⟨⟨rfl, rfl, rfl, rfl, rfl, ⟨rfl, rfl, rfl⟩, rfl⟩, rfl, rfl, rfl, rfl, rfl, rfl, by decide, rfl⟩

/-- A reply whose `SEND_BYTE` has failed, one that is going to, and one that succeeds. -/
theorem witness_SerialPollReplyOnce :
    (let s : State := { tlk with pc := [.deviceCycle .v3Ret, .mainCycle .k3Ret], ret := .err .handshakeTimeout }
     s.pc = .deviceCycle .v3Ret :: .mainCycle .k3Ret :: [] ∧ s.inbox = []) ∧
    (let s : State := { tlk with rem := { Drives.released with nrfd := true, ndac := true } }
     s.pc = [] ∧ s.inbox = [] ∧ s.cfg.role = .device ∧ s.cfg.listenOnly = false ∧ s.dev.talking = true ∧
       s.dev.spArmed = true ∧ s.bus.ifc = false ∧ s.bus.atn = false ∧ s.rem.nrfd = true ∧ s.rem.ndac = true) ∧
    tlk.pc = [] ∧ tlk.talkerOk ∧ tlk.drivesConsistent ∧ tlk.silent ∧ tlk.cfg.role = .device ∧
      tlk.cfg.listenOnly = false ∧ tlk.dev.talking = true ∧ tlk.dev.spArmed = true :=
  ⟨⟨rfl, rfl⟩, ⟨rfl, rfl, rfl, rfl, rfl, rfl, rfl, rfl, rfl, rfl⟩, rfl, rfl, by unfold State.drivesConsistent; decide, ⟨rfl, rfl⟩, rfl, rfl, rfl, rfl⟩

theorem witness_DeviceCycleQuiet :
    lstn.pc = [] ∧ lstn.talkerOk ∧ lstn.drivesConsistent ∧ lstn.silent ∧ lstn.cfg.role = .device ∧
      lstn.cfg.listenOnly = false ∧ ¬ (lstn.dev.talking = true ∧ lstn.dev.spArmed = true) :=
  ⟨rfl, rfl, by unfold State.drivesConsistent; decide, ⟨rfl, rfl⟩, rfl, rfl, by decide⟩

theorem witness_DeviceDrainsMessage :
    let s : State := { lstn with rem := { Drives.released with dav := true, eoi := true, dio := 0x55#8 },
                                 inbox := passes 3 ++ talkerWaiting 8 ++ [] }
    s.pc = [] ∧ s.cfg.role = .device ∧ s.cfg.listenOnly = false ∧ s.dev.listening = true ∧ s.addressedOnce ∧
      s.bus.ifc = false ∧ s.bus.atn = false ∧ s.rem.dav = true ∧ s.rem.eoi = true ∧
      s.inbox = passes 3 ++ talkerWaiting 8 ++ [] :=
  ⟨rfl, rfl, rfl, rfl, by unfold State.addressedOnce; decide, rfl, rfl, rfl, rfl, rfl⟩

/-- A listener about to be addressed to talk. -/
theorem witness_NeverListensAndTalks :
    let s : State := { lstn with pc := [.deviceCycle .v2Ret], ret := .okByteEoi 0x45#8 false }
    s.addressedOnce ∧ nextIs (step s) (fun t => t.dev.talking && !t.dev.listening) = true :=
  ⟨by unfold State.addressedOnce; decide, by decide⟩

theorem witness_ModeAndStatusRequests :
    (ctrl.pc = [] ∧ ctrl.inbox = [] ∧ ctrl.cfg.role = .controller) ∧ dvc.pc = [] ∧ dvc.inbox = [] ∧
      dvc.cfg.role = .device := by decide

theorem witness_SetConfigRule : ctrl.pc = [] := by decide

theorem witness_ListenOnlyLogsCommand :
    (let s : State := { lo with rem := { Drives.released with atn := true },
                                inbox := passes 3 ++ talkerByte 0x05#8 true 5 ++ [] }
     s.pc = [] ∧ s.cfg.role = .device ∧ s.cfg.listenOnly = true ∧ s.rem.atn = true ∧ s.noTalker ∧
       s.inbox = passes 3 ++ talkerByte 0x05#8 true 5 ++ []) ∧
    (let s : State := { lo with rem := { Drives.released with atn := true }, cfg := { lo.cfg with timeoutMs := 0#16 },
                                inbox := passes 8 ++ ticks 1 ++ passes 4 ++ [] }
     s.pc = [] ∧ s.rem.atn = true ∧ s.rem.dav = false ∧ s.cfg.timeoutMs.toNat ≤ 3000 ∧
       s.inbox = passes 8 ++ ticks (s.cfg.timeoutMs.toNat + 1) ++ passes 4 ++ []) ∧
    (lo.pc = [] ∧ lo.silent ∧ lo.drv.atn = false) :=
  ⟨⟨rfl, rfl, rfl, rfl, ⟨rfl, rfl, rfl⟩, rfl⟩, ⟨rfl, rfl, rfl, by decide, rfl⟩, rfl, ⟨rfl, rfl⟩, rfl⟩

theorem witness_ListenOnlyDrainsMessage :
    let s : State := { lo with rem := { Drives.released with dav := true, eoi := true, dio := 0x55#8 },
                               inbox := passes 4 ++ talkerWaiting 8 ++ [] }
    s.pc = [] ∧ s.cfg.role = .device ∧ s.cfg.listenOnly = true ∧ s.bus.atn = false ∧ s.rem.dav = true ∧
      s.rem.eoi = true ∧ s.inbox = passes 4 ++ talkerWaiting 8 ++ [] := ⟨rfl, rfl, rfl, rfl, rfl, rfl, rfl⟩

theorem witness_ListenOnlyNeverTransmits :
    let s : State := { lo with pc := [.listenOnlyCycle .l2, .mainCycle .k3Ret], rem := { Drives.released with atn := true } }
    s.cfg.role = .device ∧ s.cfg.listenOnly = true ∧ s.pc.all Frame.onlyListens = true ∧ ∃ t, mainStep s = .next t :=
  ⟨rfl, rfl, by decide, _, rfl⟩

/-- No record, a command record, a data record. -/
theorem witness_MainCycleController :
    (ctrl.pc = [] ∧ ctrl.talkerOk ∧ ctrl.silent ∧ ctrl.cfg.role = .controller ∧ ctrl.rx.oldest = none) ∧
    (let s : State := { ctrl with rx := { oneRecord with ring := [(0, 0x01#8), (1, 0x01#8), (2, 0x41#8)] } }
     s.pc = [] ∧ s.talkerOk ∧ s.silent ∧ s.rx.oldest = some ⟨0x01#8, 0x01#8, [0x41#8]⟩) ∧
    (let s : State := { ctrl with rx := oneRecord }
     s.pc = [] ∧ s.talkerOk ∧ s.silent ∧ s.rx.oldest = some ⟨0x00#8, 0x01#8, [0x41#8]⟩) :=
  ⟨⟨rfl, rfl, ⟨rfl, rfl⟩, rfl, by decide⟩, ⟨rfl, rfl, ⟨rfl, rfl⟩, by decide⟩, rfl, rfl, ⟨rfl, rfl⟩, by decide⟩

/-- No record, a record, a command record at `k2`; then a data record that is sent and one that is dropped. -/
theorem witness_MainCycleDeviceRecord :
    (dvc.pc = [] ∧ dvc.cfg.role = .device ∧ dvc.rx.oldest = none ∧
      ({ dvc with rx := oneRecord } : State).rx.oldest = some ⟨0x00#8, 0x01#8, [0x41#8]⟩) ∧
    (let x : Record := ⟨0x01#8, 0x03#8, [0x2B#8, 0x2B#8, 0x61#8]⟩
     ({ dvc with pc := [.mainCycle (.k2 (some x))] } : State).pc = .mainCycle (.k2 (some x)) :: [] ∧ x.flag = 0x01#8 ∧
       ({ dvc with pc := [.mainCycle (.k2 none)] } : State).pc = .mainCycle (.k2 none) :: []) ∧
    (let s : State := { tlk with pc := [.mainCycle (.k2 (some ⟨0x00#8, 0x01#8, [0x41#8]⟩))] }
     s.pc = [.mainCycle (.k2 (some ⟨0x00#8, 0x01#8, [0x41#8]⟩))] ∧ s.talkerOk ∧ s.silent ∧ s.cfg.role = .device ∧
       s.dev.talking = true ∧ s.cfg.listenOnly = false) ∧
    (let s : State := { lo with pc := [.mainCycle (.k2 (some ⟨0x00#8, 0x01#8, [0x41#8]⟩))] }
     s.talkerOk ∧ s.silent ∧ s.cfg.role = .device ∧ (s.dev.talking = false ∨ s.cfg.listenOnly = true)) :=
  ⟨⟨rfl, rfl, by decide, by decide⟩, ⟨rfl, rfl, rfl⟩, ⟨rfl, rfl, ⟨rfl, rfl⟩, rfl, rfl, rfl⟩, rfl, ⟨rfl, rfl⟩, rfl, .inl rfl⟩

/-- Both transceiver directions and both roles. -/
theorem witness_TickAndBusDrive :
    (ctrl.hs.xcvr = .talk ∧ ctrl.cfg.role = .controller) ∧ (dvc.hs.xcvr = .listen ∧ dvc.cfg.role = .device) := by decide

theorem witness_MainCycleRunsOneCycle :
    ({ dvc with pc := [.mainCycle .k3] }.pc = .mainCycle .k3 :: [] ∧ dvc.cfg.role = .device ∧ dvc.cfg.listenOnly = false) ∧
    (lo.cfg.role = .device ∧ lo.cfg.listenOnly = true) ∧ ctrl.cfg.role = .controller := by decide

/-- The launch of `State.reset` is legal, a store with 3001 ms is not, neither is one with the address 31, and neither is a
burst bound of 0. -/
theorem witness_BootRule :
    (State.reset.pc = [.boot .b1] ∧ State.reset.inbox = [] ∧ (State.reset.store.timeoutMs.getD 1000#16).toNat ≤ 3000 ∧
      1 ≤ State.reset.store.myPad.toNat ∧ State.reset.store.myPad.toNat ≤ 30 ∧ State.reset.store.mySad.toNat ≤ 30 ∧
      State.reset.store.eosMode.toNat ≤ 3 ∧ 1 ≤ State.reset.par.rxBurstMax) ∧
    ¬ (3001#16).toNat ≤ 3000 ∧ ¬ (31#8).toNat ≤ 30 ∧ ¬ 1 ≤ ({ State.reset with par := ⟨0, true⟩ } : State).par.rxBurstMax := by
  decide

/-- A `WAIT` that polls. -/
def polled : State :=
  { ctrl with pc := [.wait .nrfdReleased .w3, .sendByte 0x41#8 true .s4], hs := { ctrl.hs with tickEn := true } }

theorem witness_TickDiscipline : nested polled.pc = true ∧ polled.tickDisciplined ∧ ∃ t, step polled = .next t :=
  ⟨by decide, rfl, _, rfl⟩

/-- A byte on the bus; and a `SET_ROLE` that has released the controller's lines and not yet REN. -/
theorem witness_DrivesStayConsistent :
    (nested sending.pc = true ∧ sending.talkerOk ∧ sending.directionsOk ∧ sending.drivesConsistent ∧
      ∃ t, step sending = .next t) ∧
    (let s : State := { ctrl with pc := [.setRole .device .t5], cfg := { ctrl.cfg with role := .device } }
     nested s.pc = true ∧ s.talkerOk ∧ s.directionsOk ∧ s.drivesConsistent ∧ ∃ t, step s = .next t) :=
  ⟨⟨by decide, rfl, by unfold State.directionsOk; decide, by unfold State.drivesConsistent; decide, _, rfl⟩,
    by decide, rfl, by unfold State.directionsOk; decide, by unfold State.drivesConsistent; decide, _, rfl⟩

/-- The end of a `SEND_COMMAND`, with ATN asserted, and of a `SEND_IFC`, with IFC asserted. -/
theorem witness_AtnAndIfcBrackets :
    (let s : State := { ctrl with pc := [.sendCommand 0x14#8 .c4], drv := { ctrl.drv with atn := true } }
     nested s.pc = true ∧ s.controlLinesOk ∧ ∃ t, step s = .next t) ∧
    (let s : State := { ctrl with pc := [.sendIfc .i4], drv := { ctrl.drv with ifc := true } }
     nested s.pc = true ∧ s.controlLinesOk ∧ ∃ t, step s = .next t) :=
  ⟨⟨by decide, ⟨rfl, rfl⟩, _, rfl⟩, by decide, ⟨rfl, rfl⟩, _, rfl⟩

/-- A device that is made Controller. -/
theorem witness_ControllerHoldsFlagsFalse :
    let s : State := { lstn with inbox := [.message [0x0E#8, 0x00#8]] }
    nested s.pc = true ∧ s.flagsHeld ∧ nextIs (step s) (fun t => t.cfg.role == .controller) = true :=
  ⟨by decide, by unfold State.flagsHeld; decide, by decide⟩

theorem witness_ConfigStaysInRange :
    let s : State := { ctrl with inbox := [.message [0x12#8, 0x00#8, 0x1E#8]] }
    s.cfg.inRange ∧ nextIs (step s) (fun t => t.cfg.myPad == 30#8) = true :=
  ⟨by unfold ConfigRegs.inRange; decide, by decide⟩

theorem witness_PortHistoriesGrow : ∃ t, step { ctrl with inbox := [.message [0x0E#8, 0x01#8]] } = .next t := ⟨_, rfl⟩

/-- A step that writes each piece of state the statement names. -/
theorem witness_OnlyTheirWritersWrite :
    nextIs (step { ctrl with inbox := [.message [0x80#8, 0x0D#8]] }) (fun t => t.rx.head != ctrl.rx.head) = true ∧
    (nextIs (step { ctrl with rx := oneRecord }) (fun t => t.rx.rd != oneRecord.rd) = true ∧ ctrl.inbox = []) ∧
    nextIs (step { ctrl with inbox := [.message [0x0E#8, 0x01#8]] }) (fun t => t.cfg.role != ctrl.cfg.role) = true ∧
    nextIs (step { dvc with inbox := [.message [0x0F#8, 0x01#8]] }) (fun t => t.cfg.listenOnly) = true ∧
    nextIs (step { ctrl with inbox := [.message [0x10#8, 0x41#8]] })
      (fun t => t.dev.status != ctrl.dev.status && t.dev.status != 0x00#8) = true ∧
    nextIs (step { ctrl with inbox := drives (talkerOn 0x41#8 true) }) (fun t => t.rem != ctrl.rem) = true := by decide

end Sys2Proof.Tests
end

section
/-!
PROOFS. The state of the block (10_state.md).  First, who writes what: a line or an instruction writes the groups of the
state that have an owner by one named update (`State.writtenAt`, `State.writtenBy`), and does nothing else to them
(`KeepsOwned`).  The invariants of a step are then facts about those two updates.
-/

namespace Sys2Proof.Machine

/-! ### Histories that grow (R52) -/

theorem Ports.grows_refl (x : Ports) : x.grows x := by simp [Ports.grows]

theorem Ports.grows_trans {x y z : Ports} (h : x.grows y) (h' : y.grows z) : x.grows z := by
  obtain ⟨h1, h2, h3, h4, h5, h6⟩ := h
  obtain ⟨g1, g2, g3, g4, g5, g6⟩ := h'
  exact ⟨h1.trans g1, h2.trans g2, h3.trans g3, h4.trans g4, h5.trans g5, h6.trans g6⟩

theorem State.emitLink_grows (s : State) (b : Byte) : s.out.grows (s.emitLink b).out := by simp [Ports.grows]

theorem State.emitDispatch_grows (s : State) (f : Byte) (p : List Byte) : s.out.grows (s.emitDispatch f p).out := by
  simp [Ports.grows]

theorem State.emitDevEvent_grows (s : State) (e : DevEvent) : s.out.grows (s.emitDevEvent e).out := by
  simp [Ports.grows]

theorem State.emitLog_grows (s : State) (e : LogEntry) : s.out.grows (s.emitLog e).out := by simp [Ports.grows]

theorem State.emitPersist_grows (s : State) (f : FieldName) : s.out.grows (s.emitPersist f).out := by
  simp [Ports.grows]

theorem State.finish_grows (s : State) (r : Ret) (rest : List Frame) : s.out.grows (s.finish r rest).out := by
  cases rest <;> simp [Ports.grows]

/-! ### What a line leaves alone -/

/-- `t` differs from `s` in nothing that has an owner: the receiver, the configuration registers, the environment's lines
and the launch are as they were, `status` is as it was or cleared, and the port histories have only grown. -/
structure KeepsOwned (s t : State) : Prop where
  rx : t.rx = s.rx := by rfl
  cfg : t.cfg = s.cfg := by rfl
  rem : t.rem = s.rem := by rfl
  store : t.store = s.store := by rfl
  par : t.par = s.par := by rfl
  status : t.dev.status = s.dev.status ∨ t.dev.status = 0x00#8 := by exact .inl rfl
  out : s.out.grows t.out := by exact Ports.grows_refl _

namespace KeepsOwned

variable {s t u : State}

/-- An operation that ends appends its result at most (R100). -/
theorem finish (h : KeepsOwned s t) (r : Ret) (rest : List Frame) : KeepsOwned s (t.finish r rest) where
  rx := (t.finish_rx r rest).trans h.rx
  cfg := (t.finish_cfg r rest).trans h.cfg
  rem := (t.finish_rem r rest).trans h.rem
  store := (t.finish_store r rest).trans h.store
  par := (t.finish_par r rest).trans h.par
  status := by rw [State.finish_dev]; exact h.status
  out := Ports.grows_trans h.out (t.finish_grows r rest)

theorem ite {c : Prop} [Decidable c] (ht : KeepsOwned s t) (hu : KeepsOwned s u) : KeepsOwned s (if c then t else u) := by
  split
  · exact ht
  · exact hu

end KeepsOwned

/-! ### The lines of each operation -/

section
variable (rest : List Frame) (s : State)

theorem waitLine_keepsOwned (c : WaitCond) (l : WaitLine) : KeepsOwned s (waitLine c l rest s) := by
  cases l with
  | w1 | w2 => exact {}
  | w3 | w4 => exact .ite (.finish {} _ _) {}

theorem sendByteLine_keepsOwned (v : Byte) (e : Bool) (l : SendByteLine) :
    KeepsOwned s (sendByteLine v e l rest s) := by
  cases l with
  | s1 | s3 | s5 | s6 | s8 => exact {}
  | s2 | s4 | s7 => exact .ite (.finish {} _ _) {}
  | s9 => exact .finish {} _ _

theorem receiveByteLine_keepsOwned (l : ReceiveByteLine) : KeepsOwned s (receiveByteLine l rest s) := by
  cases l with
  | r1 | r2 | r3 | r5 | r6 | r7 | r9 => exact {}
  | r4 | r8 => exact .ite (.finish {} _ _) {}
  | r10 => exact .finish {} _ _

theorem sendCommandLine_keepsOwned (b : Byte) (l : SendCommandLine) : KeepsOwned s (sendCommandLine b l rest s) := by
  cases l with
  | c1 => exact .ite {} (.finish {} _ _)
  | c3 => exact {}
  | c4 => exact .finish {} _ _

theorem sendDataLoop_keepsOwned (todo : List Byte) (e : Bool) : KeepsOwned s (sendDataLoop todo e rest s) := by
  cases todo with
  | nil => exact .finish {} _ _
  | cons b bs => exact {}

theorem sendDataLine_keepsOwned (todo : List Byte) (e : Bool) : KeepsOwned s (sendDataLine todo e rest s) := by
  unfold sendDataLine
  split
  · exact .finish {} _ _
  · exact sendDataLoop_keepsOwned rest s todo e

theorem receiveMessageLine_keepsOwned (m : RecvMode) (c : Byte) (l : ReceiveMessageLine) :
    KeepsOwned s (receiveMessageLine m c l rest s) := by
  cases l with
  | m1 => rw [receiveMessageLine]; split <;> exact {}
  | m2 b eoi =>
    rw [receiveMessageLine, forwardByte]
    split <;> exact { out := s.emitLink_grows b }
  | m3 reason => exact .ite (.finish { out := s.emitLink_grows _ } _ _) (.finish {} _ _)

theorem addressingLoop_keepsOwned (todo : List Byte) : KeepsOwned s (addressingLoop todo rest s) := by
  cases todo with
  | nil => exact .finish {} _ _
  | cons b bs => exact {}

theorem enterAddressingSetup_keepsOwned (pad sad : Byte) (u : Bool) (d : Direction) :
    KeepsOwned s (enterAddressingSetup pad sad u d rest s) := by
  unfold enterAddressingSetup
  split
  · exact .finish {} _ _
  · exact addressingLoop_keepsOwned rest s _

theorem addressingSetupLine_keepsOwned (todo : List Byte) : KeepsOwned s (addressingSetupLine todo rest s) := by
  unfold addressingSetupLine
  split
  · exact .finish {} _ _
  · exact addressingLoop_keepsOwned rest s todo

theorem readStatusLoop_keepsOwned (pad sad : Byte) (u : Bool) (todo : List Byte) :
    KeepsOwned s (readStatusLoop pad sad u todo rest s) := by
  cases todo <;> exact {}

theorem enterReadStatusByte_keepsOwned (pad sad : Byte) (u : Bool) :
    KeepsOwned s (enterReadStatusByte pad sad u rest s) := by
  unfold enterReadStatusByte
  split
  · exact .finish {} _ _
  · exact readStatusLoop_keepsOwned rest s _ _ _ _

theorem readStatusByteLine_keepsOwned (pad sad : Byte) (u : Bool) (l : ReadStatusLine) :
    KeepsOwned s (readStatusByteLine pad sad u l rest s) := by
  unfold readStatusByteLine
  split
  · exact .finish {} _ _
  · cases l with
    | p3 todo => exact readStatusLoop_keepsOwned rest s _ _ _ _
    | p4 =>
      dsimp only
      split
      · exact {}
      · exact .finish {} _ _
    | p5 sb => exact {}
    | p6 sb => exact .finish {} _ _

theorem sendIfcLine_keepsOwned (l : SendIfcLine) : KeepsOwned s (sendIfcLine l rest s) := by
  cases l with
  | i1 => exact .ite {} (.finish {} _ _)
  | i3 => exact {}
  | i4 => exact .finish {} _ _

theorem groupTriggerLoop_keepsOwned (todo : List Target) (first : Option ErrKind) :
    KeepsOwned s (groupTriggerLoop todo first rest s) := by
  obtain ⟨f, h⟩ | ⟨x, ts, f, b, bs, -, -, -, h⟩ := groupTriggerLoop_cases todo first rest s
  · rw [h]; exact .finish {} _ _
  · rw [h]; exact {}

theorem groupTriggerLine_keepsOwned (todo : List Target) (first : Option ErrKind) (l : GroupTriggerLine) :
    KeepsOwned s (groupTriggerLine todo first l rest s) := by
  unfold groupTriggerLine
  split
  · exact groupTriggerLoop_keepsOwned rest s _ _
  · cases l with
    | addressing => exact {}
    | trigger => exact groupTriggerLoop_keepsOwned rest s _ _

theorem devClearLine_keepsOwned (l : DevClearLine) : KeepsOwned s (devClearLine l rest s) := by
  cases l with
  | e1 | e3 => exact {}
  | e2 => exact { status := .inr rfl }

/-- A device event is the only thing a command emits (R241, R247). -/
theorem applyCmd_grows (c : Cmd) : s.out.grows (applyCmd c s).out := by
  have hook (e : DevEvent) : s.out.grows (onHook e s).out := by
    unfold onHook
    split
    · exact s.emitDevEvent_grows e
    · exact Ports.grows_refl _
  cases c with
  | gtl | get | llo => exact hook _
  | mla a => rw [applyCmd, onMla]; split <;> exact Ports.grows_refl _
  | mta a => rw [applyCmd, onMta]; split <;> exact Ports.grows_refl _
  | sdc => rw [applyCmd, onSdc]; split <;> exact Ports.grows_refl _
  | unl | unt | dcl | spe | spd | msa | other => exact Ports.grows_refl _

theorem applyCmd_keepsOwned (c : Cmd) : KeepsOwned s (applyCmd c s) :=
  ⟨applyCmd_rx c s, applyCmd_cfg c s, applyCmd_rem c s, applyCmd_store c s, applyCmd_par c s, .inl (applyCmd_status c s),
    applyCmd_grows s c⟩

theorem deviceCycleLine_keepsOwned (l : DeviceCycleLine) : KeepsOwned s (deviceCycleLine l rest s) := by
  cases l with
  | v1 => exact .ite (.finish {} _ _) (.ite {} {})
  | v2 | v3 => exact .ite {} {}
  | v2Ret =>
    rw [deviceCycleLine]
    obtain h | ⟨c, h⟩ := applyReceived_cases (s.goto (.deviceCycle .v5 :: rest))
    · rw [h]; exact {}
    · rw [h]; exact { applyCmd_keepsOwned (s.goto (.deviceCycle .v5 :: rest)) c with }
  | v3Ret => exact { status := .inr rfl }
  | v3Srq => exact {}
  | v4 => exact .ite {} (.finish {} _ _)
  | v3Disarm | v4Ret | v5 => exact .finish {} _ _

theorem setRoleLine_keepsOwned (new : Role) (l : SetRoleLine) : KeepsOwned s (setRoleLine new l rest s) := by
  cases l with
  | t2 => exact { status := .inr rfl }
  | t3 | t4 => exact {}
  | t5 => cases new <;> exact {}
  | t6 => exact .finish { out := s.emitPersist_grows _ } _ _

theorem setListenOnlyLine_keepsOwned (on : Bool) (l : SetListenOnlyLine) :
    KeepsOwned s (setListenOnlyLine on l rest s) := by
  cases l with
  | n2 => exact { status := .inr rfl }
  | n3 | n4 => exact {}
  | n5 => exact .finish { out := s.emitPersist_grows _ } _ _

theorem logReceived_keepsOwned : KeepsOwned s (logReceived s) := by
  obtain h | ⟨e, h⟩ := logReceived_cases s
  · rw [h]; exact {}
  · rw [h]; exact { out := s.emitLog_grows e }

theorem listenOnlyLine_keepsOwned (l : ListenOnlyLine) : KeepsOwned s (listenOnlyLine l rest s) := by
  cases l with
  | l1 => exact .ite (.finish {} _ _) {}
  | l1Talker | l1Acceptor => exact {}
  | l2 => exact .ite {} {}
  | l2Ret => exact .finish (logReceived_keepsOwned s) _ _
  | l3 => exact .ite {} (.finish {} _ _)
  | l3Ret => exact .finish {} _ _

theorem deviceRecordLoop_keepsOwned (todo : List Byte) : KeepsOwned s (deviceRecordLoop todo rest s) := by
  cases todo <;> exact {}

theorem routeRecord_keepsOwned (popped : Option Record) : KeepsOwned s (routeRecord popped rest s) := by
  cases popped with
  | none => exact {}
  | some x =>
    exact .ite { out := s.emitDispatch_grows _ _ }
      (.ite (sendDataLoop_keepsOwned _ s _ _) (.ite (deviceRecordLoop_keepsOwned rest s _) {}))

/-- The lines of `MAIN_CYCLE` after the first, which pops (R280). -/
theorem mainCycleLine_keepsOwned {l : MainCycleLine} (h : l ≠ .k1) : KeepsOwned s (mainCycleLine l rest s) := by
  cases l with
  | k1 => exact absurd rfl h
  | k2 popped => exact routeRecord_keepsOwned rest s popped
  | k2Ret => exact {}
  | k2Byte todo =>
    rw [mainCycleLine, deviceRecordLine]
    split
    · exact {}
    · exact deviceRecordLoop_keepsOwned rest s todo
  | k3 => exact .ite (.ite {} {}) (.finish {} _ _)
  | k3Ret => exact .finish {} _ _

end

/-! ### What a line of the main loop writes -/

/-- The one write to owned state at a line: the pop of line `k1` (R280), the registers of boot's line `b1` (R342) and the
unmasking of its line `b4`. -/
def State.writtenAt (s : State) (f : Frame) : State :=
  match f with
  | .mainCycle .k1 => { s with rx := s.rx.popped }
  | .boot .b1 => if s.store.inRange then { s with cfg := s.store.regs } else s
  | .boot .b4 => { s with rx.enabled := true }
  | _ => s

theorem idleDrives_keepsOwned (s : State) (r : Role) : KeepsOwned s (s.idleDrives r) := by
  cases r <;> exact {}

theorem bootLine_keepsOwned {l : BootLine} {s t : State} (h : bootLine l s = .next t) :
    KeepsOwned (s.writtenAt (.boot l)) t := by
  cases l with
  | b1 =>
    rw [bootLine] at h
    split at h
    · next hr =>
      rw [Bool.and_eq_true] at hr
      cases h
      rw [State.writtenAt, if_pos hr.1]
      exact {}
    · cases h
  | b2 =>
    cases h
    exact { idleDrives_keepsOwned s s.cfg.role with }
  | b4 | b5 => cases h; exact {}

/-- A line does its one write, and leaves everything else that has an owner. -/
theorem runLine_keepsOwned {f : Frame} {rest : List Frame} {s t : State} (h : runLine f rest s = .next t) :
    KeepsOwned (s.writtenAt f) t := by
  cases f with
  | boot l => exact bootLine_keepsOwned h
  | mainCycle l =>
    cases h
    by_cases hl : l = .k1
    · subst hl; exact {}
    · have hw : s.writtenAt (.mainCycle l) = s := by cases l with
        | k1 => exact absurd rfl hl
        | _ => rfl
      rw [hw]; exact mainCycleLine_keepsOwned rest s hl
  | wait c l => cases h; exact waitLine_keepsOwned rest s c l
  | sendByte v e l => cases h; exact sendByteLine_keepsOwned rest s v e l
  | receiveByte l => cases h; exact receiveByteLine_keepsOwned rest s l
  | sendCommand b l => cases h; exact sendCommandLine_keepsOwned rest s b l
  | sendData todo e => cases h; exact sendDataLine_keepsOwned rest s todo e
  | receiveMessage m c l => cases h; exact receiveMessageLine_keepsOwned rest s m c l
  | addressingSetup todo => cases h; exact addressingSetupLine_keepsOwned rest s todo
  | readStatusByte p a u l => cases h; exact readStatusByteLine_keepsOwned rest s p a u l
  | sendIfc l => cases h; exact sendIfcLine_keepsOwned rest s l
  | groupTrigger todo first l => cases h; exact groupTriggerLine_keepsOwned rest s todo first l
  | devClear l => cases h; exact devClearLine_keepsOwned rest s l
  | deviceCycle l => cases h; exact deviceCycleLine_keepsOwned rest s l
  | listenOnlyCycle l => cases h; exact listenOnlyLine_keepsOwned rest s l
  | setRole new l => cases h; exact setRoleLine_keepsOwned rest s new l
  | setListenOnly on l => cases h; exact setListenOnlyLine_keepsOwned rest s on l

/-! ### What a request or an event writes -/

/-- The one write to owned state of an instruction: a request's first line, an event's whole effect. -/
def State.writtenBy (s : State) (i : Instr) : State :=
  match i with
  | .popRecord => { s with rx := s.rx.popped }
  | .mainCycle => { s with rx := s.rx.popped }
  | .setRole r => { s with cfg.role := r }
  | .setListenOnly on => { s with cfg.listenOnly := on }
  | .setConfig w => if configInRange w then { s with cfg := s.cfg.write w } else s
  | .setStatus v => { s with dev.status := v }
  | .rxBurst bs => { s with rx := s.rx.burst bs }
  | .busDrive d => { s with rem := s.rem.update d }
  | .reset => resetState s
  | _ => s

/-- An instruction that a message holds does its one write, and leaves everything else that has an owner. -/
theorem exec_keepsOwned {i : Instr} {s t : State} (hk : i.kind = .request ∨ i.kind = .event) (h : exec i s = .next t) :
    KeepsOwned (s.writtenBy i) t := by
  cases i with
  | sendByte v e => obtain ⟨-, rfl⟩ := State.accept_next h; exact sendByteLine_keepsOwned [] s v e .s1
  | receiveByte => obtain ⟨-, rfl⟩ := State.accept_next h; exact receiveByteLine_keepsOwned [] s .r1
  | sendCommand b => obtain ⟨-, rfl⟩ := State.accept_next h; exact sendCommandLine_keepsOwned [] s b .c1
  | sendData buffer e => obtain ⟨-, rfl⟩ := State.accept_next h; exact sendDataLoop_keepsOwned [] s _ e
  | receiveMessage m c => obtain ⟨-, rfl⟩ := State.accept_next h; exact {}
  | addressingSetup p a u d =>
    obtain ⟨-, rfl⟩ := State.accept_next h; exact enterAddressingSetup_keepsOwned [] s p a u d
  | readStatusByte p a u => obtain ⟨-, rfl⟩ := State.accept_next h; exact enterReadStatusByte_keepsOwned [] s p a u
  | sendIfc => obtain ⟨-, rfl⟩ := State.accept_next h; exact sendIfcLine_keepsOwned [] s .i1
  | sendGroupTrigger list =>
    obtain ⟨-, rfl⟩ := State.accept_next h
    exact .ite (groupTriggerLoop_keepsOwned [] s list none) (.finish {} _ _)
  | popRecord => obtain ⟨-, rfl⟩ := State.accept_next h; exact .finish {} _ _
  | deviceCycle => obtain ⟨-, rfl⟩ := State.accept_next h; exact deviceCycleLine_keepsOwned [] s .v1
  | listenOnlyCycle => obtain ⟨-, rfl⟩ := State.accept_next h; exact listenOnlyLine_keepsOwned [] s .l1
  | mainCycle => obtain ⟨-, rfl⟩ := State.accept_next h; exact {}
  | setRole r => obtain ⟨-, rfl⟩ := State.accept_next h; exact {}
  | setListenOnly on => obtain ⟨-, rfl⟩ := State.accept_next h; exact {}
  | setStatus v => obtain ⟨-, rfl⟩ := State.accept_next h; exact .finish {} _ _
  | setSrq on =>
    obtain ⟨-, rfl⟩ := State.accept_next h
    exact .ite (.finish {} _ _) (.finish {} _ _)
  | setConfig w =>
    obtain ⟨-, rfl⟩ := State.accept_next h
    rw [State.writtenBy, changeConfig]
    split
    · exact .finish { out := State.emitPersist_grows { s with cfg := s.cfg.write w } _ } _ _
    · exact .finish {} _ _
  | rxBurst bs =>
    change execRxBurst bs s = _ at h
    unfold execRxBurst at h
    split at h
    · cases h; exact {}
    · cases h
  | tick => cases h; exact .ite {} {}
  | busDrive d => cases h; exact {}
  | reset => cases h; exact {}
  | _ => cases hk <;> contradiction

/-! ### What a step writes -/

/-- The line the main loop runs next: the innermost operation's, or the first of `MAIN_CYCLE` on an idle block (R286). -/
def State.nextFrame (s : State) : Frame := s.pc.headD (.mainCycle .k1)

theorem State.nextFrame_k1 {s : State} (h : s.nextFrame = .mainCycle .k1) :
    s.pc = [] ∨ ∃ rest, s.pc = .mainCycle .k1 :: rest := by
  unfold State.nextFrame at h
  cases hp : s.pc with
  | nil => exact .inl rfl
  | cons f rest => rw [hp] at h; exact .inr ⟨rest, by rw [← h]; rfl⟩

theorem State.nextFrame_boot {s : State} {l : BootLine} (h : s.nextFrame = .boot l) : ∃ rest, s.pc = .boot l :: rest := by
  unfold State.nextFrame at h
  cases hp : s.pc with
  | nil => rw [hp] at h; cases h
  | cons f rest => rw [hp] at h; exact ⟨rest, by rw [← h]; rfl⟩

theorem mainStep_keepsOwned {s t : State} (h : mainStep s = .next t) : KeepsOwned (s.writtenAt s.nextFrame) t := by
  unfold mainStep at h
  unfold State.nextFrame
  split at h
  · next hp =>
    obtain ⟨-, rfl⟩ := State.accept_next h
    rw [hp]; exact {}
  · next hp =>
    rw [hp]; exact runLine_keepsOwned h

/-- Everything a step writes to owned state: the write of the message it takes, or of the line it runs when it takes none.
`p` is the state with the schedule advanced, or as it was. -/
theorem step_keepsOwned {s t : State} (h : step s = .next t) :
    ∃ q, ∃ p : State, p = { s with inbox := q } ∧
      ((∃ i, s.takes i ∧ KeepsOwned (p.writtenBy i) t) ∨
       ((∀ i, ¬ s.takes i) ∧ KeepsOwned (p.writtenAt p.nextFrame) t)) := by
  by_cases ht : ∃ i, s.takes i
  · obtain ⟨i, bs, q, hq, hd, ha⟩ := ht
    rw [step_message hq hd, if_pos ha] at h
    exact ⟨q, _, rfl, .inl ⟨i, ⟨bs, q, hq, hd, ha⟩, exec_keepsOwned (decodeMessage_kind hd) h⟩⟩
  · have hn : ∀ i, ¬ s.takes i := fun i hi => ht ⟨i, hi⟩
    obtain h | ⟨hdue, h⟩ | ⟨q, _, h⟩ | ⟨bs, q, i, hq, hd, ha, _⟩ := step_cases h
    · exact ⟨s.inbox, s, rfl, .inr ⟨hn, mainStep_keepsOwned h⟩⟩
    · obtain ⟨c, rest, hp, -⟩ := tickDue_iff.mp hdue
      have hw : s.writtenAt s.nextFrame = s := by rw [State.nextFrame, hp]; rfl
      exact ⟨s.inbox, s, rfl, .inr ⟨hn, hw.symm ▸ exec_keepsOwned (.inr rfl) h⟩⟩
    · exact ⟨q, _, rfl, .inr ⟨hn, mainStep_keepsOwned h⟩⟩
    · exact absurd ⟨bs, q, hq, hd, ha⟩ (hn i)

end Sys2Proof.Machine
end

section
/-!
PROOFS. The receiver invariants (R30, R62, R63).  `Laid` says what `recordsFrom` computes as a relation, one rule per record,
so that facts about unread records are inductions over the records; then each operation of the receiver keeps `sound`.
-/

namespace Sys2Proof.Machine

/-! ### Records laid out in the ring (R62) -/

/-- The records `xs` fill exactly `k` bytes from ring address `o` on. -/
inductive Receiver.Laid (r : Receiver) : Byte → Nat → List Record → Prop
  | nil (o : Byte) : Laid r o 0 []
  | cons {o : Byte} {k : Nat} {xs : List Record} (hx : (r.recordAt o).headerOk k = true)
      (h : Laid r (o + 2#8 + (r.recordAt o).len) (k - (2 + (r.recordAt o).len.toNat)) xs) :
      Laid r o k (r.recordAt o :: xs)

theorem Record.headerOk_iff {x : Record} {k : Nat} : x.headerOk k = true ↔
    (x.flag = Config.flagData ∨ x.flag = Config.flagCommand) ∧ x.len.toNat ≤ 253 ∧ 2 + x.len.toNat ≤ k := by
  simp [Record.headerOk, and_assoc]

/-- With enough fuel, `recordsFrom` answers the records that are laid out. -/
theorem Receiver.recordsFrom_eq_some {r : Receiver} {n : Nat} {o : Byte} {k : Nat} {xs : List Record} (hk : k ≤ n) :
    r.recordsFrom n o k = some xs ↔ r.Laid o k xs := by
  induction n generalizing o k xs with
  | zero =>
    obtain rfl := Nat.le_zero.mp hk
    constructor
    · intro h; cases h; exact .nil o
    · intro h
      cases h with
      | nil => rfl
      | cons hx _ => exact absurd (Record.headerOk_iff.mp hx).2.2 (by omega)
  | succ n ih =>
    cases k with
    | zero =>
      constructor
      · intro h; cases h; exact .nil o
      · intro h
        cases h with
        | nil => rfl
        | cons hx _ => exact absurd (Record.headerOk_iff.mp hx).2.2 (by omega)
    | succ k =>
      rw [Receiver.recordsFrom]
      constructor
      · intro h
        split at h
        · next hx =>
          obtain ⟨ys, hy, rfl⟩ := Option.map_eq_some_iff.mp h
          exact .cons hx ((ih (by omega)).mp hy)
        · cases h
      · intro h
        cases h with
        | cons hx h => rw [if_pos hx, (ih (by omega)).mpr h]; rfl

theorem Receiver.records_eq_some {r : Receiver} {xs : List Record} : r.records = some xs ↔ r.Laid r.rd r.used xs :=
  Receiver.recordsFrom_eq_some (Nat.le_refl _)

/-- Two runs of records back to back. -/
theorem Receiver.Laid.append {r : Receiver} {o : Byte} {j k : Nat} {xs ys : List Record} (h : r.Laid o j xs)
    (h' : r.Laid (o + BitVec.ofNat 8 j) k ys) : r.Laid o (j + k) (xs ++ ys) := by
  induction h with
  | nil o => simpa using h'
  | @cons o j xs hx h ih =>
    obtain ⟨hf, hl, hj⟩ := Record.headerOk_iff.mp hx
    refine .cons (Record.headerOk_iff.mpr ⟨hf, hl, by omega⟩) ?_
    rw [show j + k - (2 + (r.recordAt o).len.toNat) = j - (2 + (r.recordAt o).len.toNat) + k by omega]
    apply ih
    convert h' using 1
    bv_omega

/-! ### What a record reads -/

/-- A record that lies within `k` bytes reads those bytes only. -/
theorem Receiver.recordAt_congr {r r' : Receiver} {o : Byte} {k : Nat}
    (h : ∀ j < k, r'.memRead (o + BitVec.ofNat 8 j) = r.memRead (o + BitVec.ofNat 8 j))
    (hk : 2 + (r.recordAt o).len.toNat ≤ k) : r'.recordAt o = r.recordAt o := by
  have hflag : r'.memRead o = r.memRead o := by simpa using h 0 (by omega)
  have hlen : r'.memRead (o + 1#8) = r.memRead (o + 1#8) := h 1 (by omega)
  have hpay : r'.payloadAt o (r.memRead (o + 1#8)).toNat = r.payloadAt o (r.memRead (o + 1#8)).toNat := by
    refine List.map_congr_left fun i hi => ?_
    have hi : i < (r.recordAt o).len.toNat := List.mem_range.mp hi
    have hb := h (2 + i) (by omega)
    rwa [BitVec.ofNat_add, ← BitVec.add_assoc] at hb
  rw [Receiver.recordAt, Receiver.recordAt, hflag, hlen, hpay]

/-- Laid-out records depend on their own bytes only. -/
theorem Receiver.Laid.congr {r r' : Receiver} {o : Byte} {k : Nat} {xs : List Record} (hl : r.Laid o k xs)
    (h : ∀ j < k, r'.memRead (o + BitVec.ofNat 8 j) = r.memRead (o + BitVec.ofNat 8 j)) : r'.Laid o k xs := by
  induction hl with
  | nil o => exact .nil o
  | @cons o k xs hx hl ih =>
    obtain ⟨-, -, hk⟩ := Record.headerOk_iff.mp hx
    have e := Receiver.recordAt_congr h hk
    rw [← e] at hx ih hk ⊢
    refine .cons hx (ih fun j hj => ?_)
    have hb := h (2 + (r'.recordAt o).len.toNat + j) (by omega)
    rwa [BitVec.ofNat_add, BitVec.ofNat_add, BitVec.ofNat_toNat, BitVec.setWidth_eq, ← BitVec.add_assoc,
      ← BitVec.add_assoc] at hb

/-- A write past the records leaves them. -/
theorem Receiver.Laid.memWrite {r : Receiver} {o : Byte} {k : Nat} {xs : List Record} (hl : r.Laid o k xs) {a : Byte}
    (ha : k ≤ (a - o).toNat) (v : Byte) : (r.memWrite a v).Laid o k xs := by
  refine hl.congr fun j hj => r.memRead_memWrite_other ?_ v
  rintro rfl
  rw [BitVec.add_comm, BitVec.add_sub_cancel, BitVec.toNat_ofNat] at ha
  exact absurd (Nat.mod_le j (2 ^ 8)) (by omega)

/-! ### The unread records under the operations of the receiver -/

theorem Receiver.records_congr {r r' : Receiver} (hring : r'.ring = r.ring) (hrd : r'.rd = r.rd)
    (hhead : r'.head = r.head) : r'.records = r.records := by
  have hu : r'.used = r.used := by rw [Receiver.used, Receiver.used, hrd, hhead]
  have hm (a : Byte) : r'.memRead a = r.memRead a := by rw [Receiver.memRead, Receiver.memRead, hring]
  ext1 xs
  rw [Receiver.records_eq_some, Receiver.records_eq_some, hrd, hu]
  exact ⟨fun h => h.congr fun _ _ => (hm _).symm, fun h => h.congr fun _ _ => hm _⟩

/-- A write to a free byte leaves the unread records (R69). -/
theorem Receiver.records_memWrite {r : Receiver} {xs : List Record} (h : r.records = some xs) {a : Byte}
    (ha : r.used ≤ (a - r.rd).toNat) (v : Byte) : (r.memWrite a v).records = some xs :=
  Receiver.records_eq_some.mpr ((Receiver.records_eq_some.mp h).memWrite ha v)

theorem Receiver.memRead_writeHeader_other (r : Receiver) {a : Byte} (h : a ≠ r.head) (h' : a ≠ r.head + 1#8)
    (v : Byte) :
    (r.writeHeader v).memRead a = r.memRead a :=
  (Receiver.memRead_memWrite_other _ h' v).trans (Receiver.memRead_memWrite_other r h _)

theorem Receiver.wf_writeHeader {r : Receiver} (h : Memory.wf r.ring = true) (v : Byte) :
    Memory.wf (r.writeHeader v).ring = true :=
  Receiver.wf_memWrite (Receiver.wf_memWrite h _ _) _ _

theorem Receiver.fits_iff {r : Receiver} : r.fits = true ↔ r.used + 2 + r.len.toNat ≤ 255 := decide_eq_true_iff

theorem Receiver.collides_false {r : Receiver} : r.collides = false ↔ r.used + 2 + r.len.toNat + 1 ≤ 255 := by
  rw [Receiver.collides, decide_eq_false_iff_not, Nat.not_lt]

/-- The record in progress, once its header is written (R127). -/
def Receiver.inProgress (r : Receiver) : Record :=
  ⟨if r.cmd then Config.flagCommand else Config.flagData, r.len, r.payloadAt r.head r.len.toNat⟩

theorem Receiver.recordAt_writeHeader {r : Receiver} (h : Memory.wf r.ring = true) (hl : r.len.toNat ≤ 253) :
    (r.writeHeader r.len).recordAt r.head = r.inProgress := by
  have hflag : (r.writeHeader r.len).memRead r.head = if r.cmd then Config.flagCommand else Config.flagData := by
    rw [Receiver.writeHeader, Receiver.memRead_memWrite_other _ (by bv_omega), Receiver.memRead_memWrite_same h]
  have hlen : (r.writeHeader r.len).memRead (r.head + 1#8) = r.len :=
    Receiver.memRead_memWrite_same (Receiver.wf_memWrite h _ _) _ _
  rw [Receiver.recordAt, Receiver.inProgress, hflag, hlen]
  congr 1
  refine List.map_congr_left fun i hi => ?_
  have hi := List.mem_range.mp hi
  exact r.memRead_writeHeader_other (by bv_omega) (by bv_omega) r.len

theorem Receiver.inProgress_headerOk {r : Receiver} (hl : r.len.toNat ≤ 253) :
    r.inProgress.headerOk (2 + r.len.toNat) = true := by
  refine Record.headerOk_iff.mpr ⟨?_, hl, Nat.le_refl _⟩
  rw [Receiver.inProgress]
  cases r.cmd
  · exact .inl rfl
  · exact .inr rfl

theorem Receiver.used_publish {r : Receiver} (hf : r.used + 2 + r.len.toNat ≤ 255) :
    r.publish.used = r.used + (2 + r.len.toNat) := by
  change (r.head + 2#8 + r.len - r.rd).toNat = (r.head - r.rd).toNat + (2 + r.len.toNat)
  rw [Receiver.used] at hf
  bv_omega

/-- Publishing appends the record in progress to the unread ones (R127, R134). -/
theorem Receiver.records_publish {r : Receiver} {xs : List Record} (hw : Memory.wf r.ring = true)
    (h : r.records = some xs) (hf : r.used + 2 + r.len.toNat ≤ 255) : r.publish.records = some (xs ++ [r.inProgress]) := by
  have hu : (r.head - r.rd).toNat = r.used := rfl
  have hl : r.len.toNat ≤ 253 := by omega
  have old : (r.writeHeader r.len).Laid r.rd r.used xs :=
    ((Receiver.records_eq_some.mp h).memWrite (a := r.head) (by omega) _).memWrite (by bv_omega) _
  have hx := Receiver.recordAt_writeHeader hw hl
  have new : (r.writeHeader r.len).Laid (r.rd + BitVec.ofNat 8 r.used) (2 + r.len.toNat) [r.inProgress] := by
    have ha : r.rd + BitVec.ofNat 8 r.used = r.head := by bv_omega
    rw [ha, ← hx]
    refine .cons (by rw [hx]; exact Receiver.inProgress_headerOk hl) ?_
    rw [hx, show 2 + r.len.toNat - (2 + r.inProgress.len.toNat) = 0 from Nat.sub_self _]
    exact .nil _
  rw [Receiver.records_eq_some, Receiver.used_publish hf]
  exact (old.append new).congr fun _ _ => rfl

theorem Receiver.isEmpty_iff {r : Receiver} : r.isEmpty = true ↔ r.used = 0 := by
  rw [Receiver.isEmpty, decide_eq_true_iff, Receiver.used]
  constructor <;> intro h <;> bv_omega

/-- The unread records are none exactly when the buffer is empty; otherwise `POP_RECORD` takes the oldest of them, and the
others stay (R132, R134). -/
theorem Receiver.records_cases {r : Receiver} {xs : List Record} (h : r.records = some xs) :
    (xs = [] ∧ r.used = 0 ∧ r.oldest = none ∧ r.popped = r) ∨
      ∃ x ys, xs = x :: ys ∧ r.oldest = some x ∧ r.popped = { r with rd := r.rd + 2#8 + x.len } ∧
        r.popped.records = some ys ∧ r.popped.used + (2 + x.len.toNat) = r.used := by
  have hl := Receiver.records_eq_some.mp h
  generalize hk : r.used = k at hl
  cases hl with
  | nil =>
    have ho : r.oldest = none := if_pos (Receiver.isEmpty_iff.mpr hk)
    exact .inl ⟨rfl, rfl, ho, by rw [Receiver.popped, ho]⟩
  | @cons _ _ ys hx hl =>
    obtain ⟨-, -, hxk⟩ := Record.headerOk_iff.mp hx
    have ho : r.oldest = some (r.recordAt r.rd) := if_neg fun he => by rw [Receiver.isEmpty_iff.mp he] at hk; omega
    have hp : r.popped = { r with rd := r.rd + 2#8 + (r.recordAt r.rd).len } := by rw [Receiver.popped, ho]
    have hu : r.popped.used = k - (2 + (r.recordAt r.rd).len.toNat) := by
      rw [hp]
      change (r.head - (r.rd + 2#8 + (r.recordAt r.rd).len)).toNat = _
      have hk : (r.head - r.rd).toNat = k := hk
      bv_omega
    refine .inr ⟨_, ys, rfl, ho, hp, ?_, by omega⟩
    rw [Receiver.records_eq_some, hu, hp]
    exact hl.congr fun _ _ => rfl

/-! ### The invariant of the receiver (R30) -/

/-- The part of R30 that speaks of the ring and the cursors: canonical contents, and whole records from `rd` to `head`. -/
def Receiver.ringOk (r : Receiver) : Prop := Memory.wf r.ring = true ∧ r.records.isSome = true

/-- `State.receiverOk`, said of the receiver. -/
def Receiver.sound (r : Receiver) : Prop := r.ringOk ∧ r.ok

theorem State.receiverOk_iff {s : State} : s.receiverOk ↔ s.rx.sound :=
  ⟨fun ⟨hw, ho, hr⟩ => ⟨⟨hw, hr⟩, ho⟩, fun ⟨⟨hw, hr⟩, ho⟩ => ⟨hw, ho, hr⟩⟩

theorem Receiver.ringOk_iff {r : Receiver} : r.ringOk ↔ Memory.wf r.ring = true ∧ ∃ xs, r.records = some xs := by
  rw [Receiver.ringOk, Option.isSome_iff_exists]

/-- The flags, the mode and the record in progress do not matter to the ring. -/
theorem Receiver.ringOk.congr {r r' : Receiver} (h : r.ringOk) (hring : r'.ring = r.ring := by rfl)
    (hrd : r'.rd = r.rd := by rfl) (hhead : r'.head = r.head := by rfl) : r'.ringOk := by
  rwa [Receiver.ringOk, hring, Receiver.records_congr hring hrd hhead]

theorem Receiver.ringOk.publish {r : Receiver} (h : r.ringOk) (hf : r.used + 2 + r.len.toNat ≤ 255) :
    r.publish.ringOk := by
  obtain ⟨hw, xs, hx⟩ := Receiver.ringOk_iff.mp h
  exact Receiver.ringOk_iff.mpr ⟨Receiver.wf_writeHeader hw _, _, Receiver.records_publish hw hx hf⟩

/-- A forced flush publishes the 253 bytes, and the continuation inherits the flag (R128). -/
theorem Receiver.forceFlush_eq {r : Receiver} (h : r.len.toNat = 253) : r.forceFlush = { r.publish with len := 0#8 } := by
  obtain ⟨ring, rd, head, len, cmd, esc, lead, mode, en⟩ := r
  obtain rfl : len = 253#8 := BitVec.eq_of_toNat_eq h
  simp [Receiver.forceFlush, Receiver.publish, BitVec.add_assoc, Receiver.writeHeader, Receiver.memWrite]

theorem Receiver.ringOk.append {r : Receiver} (h : r.ringOk) (hc : r.collides = false) (c : Byte) :
    (r.append c).ringOk := by
  obtain ⟨hw, xs, hx⟩ := Receiver.ringOk_iff.mp h
  have hc := Receiver.collides_false.mp hc
  have ha : r.used ≤ (r.head + 2#8 + r.len - r.rd).toNat := by
    rw [Receiver.used] at hc ⊢
    bv_omega
  have hm : (r.memWrite (r.head + 2#8 + r.len) c).ringOk :=
    Receiver.ringOk_iff.mpr ⟨Receiver.wf_memWrite hw _ _, _, Receiver.records_memWrite hx ha c⟩
  exact hm.congr

/-- Past the lookahead and in `Normal` mode, what is left of R30 is that the record in progress fits. -/
theorem Receiver.ok_of_body {r : Receiver} (hl : r.lead = .body) (hm : r.mode = .normal)
    (hf : r.used + 2 + r.len.toNat ≤ 255) : r.ok :=
  ⟨by omega, fun _ _ => hf, fun h => absurd (hm.symm.trans h) nofun, fun h => absurd hl h⟩

/-- `store` on a record with room for its byte or not (R125): the invariant holds after it, whatever it decides. -/
theorem Receiver.sound_storeChecked {r : Receiver} (h : r.ringOk) (hl : r.lead = .body) (hm : r.mode = .normal)
    (c : Byte) : (r.storeChecked c).sound := by
  unfold Receiver.storeChecked
  split
  · exact ⟨h.congr, Nat.zero_le 253, nofun, fun _ => rfl, fun h => absurd hl h⟩
  · next hc =>
    have hc := Bool.eq_false_iff.mpr hc
    refine ⟨h.append hc c, Receiver.ok_of_body hl hm ?_⟩
    have hc := Receiver.collides_false.mp hc
    have hlen : (r.len + 1#8).toNat = r.len.toNat + 1 := by bv_omega
    change r.used + 2 + (r.len + 1#8).toNat ≤ 255
    omega

theorem Receiver.sound_store {r : Receiver} (h : r.sound) (hl : r.lead = .body) (hm : r.mode = .normal) (c : Byte) :
    (r.store c).sound := by
  obtain ⟨hr, -, hfit, -⟩ := h
  unfold Receiver.store
  split
  · next h253 =>
    have h253 : r.len.toNat = 253 := h253
    rw [Receiver.forceFlush_eq h253]
    have hp : Receiver.ringOk { r.publish with len := 0#8 } := (hr.publish (hfit hm (by omega))).congr
    exact Receiver.sound_storeChecked hp hl hm c
  · exact Receiver.sound_storeChecked hr hl hm c

/-- `store` leaves the lookahead alone (R125). -/
@[simp] theorem Receiver.store_lead (r : Receiver) (c : Byte) : (r.store c).lead = r.lead := by
  have hchecked (x : Receiver) : (x.storeChecked c).lead = x.lead := by
    unfold Receiver.storeChecked
    split <;> rfl
  unfold Receiver.store
  split
  · exact hchecked _
  · exact hchecked _

/-- A byte or a ++ pair ends the lookahead, and the rest of R30 stays. -/
theorem Receiver.sound.body {r : Receiver} (h : r.sound) : Receiver.sound { r with lead := .body } := by
  obtain ⟨hr, hlen, hfit, hdis, -⟩ := h
  exact ⟨hr.congr, hlen, hfit, hdis, fun h => absurd rfl h⟩

/-- Past the lookahead the flags are free: R30 says nothing of them. -/
theorem Receiver.sound.flags {r : Receiver} (h : r.sound) (hl : r.lead = .body) (cmd esc : Bool) :
    Receiver.sound { r with cmd := cmd, esc := esc } := by
  obtain ⟨hr, hlen, hfit, hdis, -⟩ := h
  exact ⟨hr.congr, hlen, hfit, hdis, fun h => absurd hl h⟩

/-- While the lookahead is not over, the record holds nothing (R28, R30). -/
theorem Receiver.sound.lookahead {r : Receiver} (h : r.sound) (hl : r.lead ≠ .body) :
    r.len = 0#8 ∧ r.esc = false ∧ r.cmd = false ∧ r.mode = .normal := by
  obtain ⟨-, -, -, -, hlead⟩ := h
  exact hlead hl

/-- A receiver in `Normal` mode that holds no byte, no escape and no command flag keeps R30 wherever its lookahead is. -/
theorem Receiver.ok_of_empty {r : Receiver} (hlen : r.len = 0#8) (hesc : r.esc = false) (hcmd : r.cmd = false)
    (hm : r.mode = .normal) : r.ok := by
  have hz : r.len.toNat = 0 := by rw [hlen]; rfl
  exact ⟨by omega, fun _ h => by omega, fun _ => hlen, fun _ => ⟨hlen, hesc, hcmd, hm⟩⟩

/-- Each of the two stores of a leading pair, and the command flag after them, keeps the invariant (R124). -/
theorem Receiver.sound_leadingPair {r : Receiver} (h : r.sound) (hm : r.mode = .normal) : r.leadingPair.sound := by
  have storeIf (x : Receiver) (hx : x.sound) (hl : x.lead = .body) :
      (if x.mode = .normal then x.store Config.chPlus else x).sound ∧
        (if x.mode = .normal then x.store Config.chPlus else x).lead = .body := by
    split
    · next hn => exact ⟨Receiver.sound_store hx hl hn _, by rw [Receiver.store_lead, hl]⟩
    · exact ⟨hx, hl⟩
  have flagIf (x : Receiver) (hx : x.sound) (hl : x.lead = .body) :
      Receiver.sound (if x.mode = .normal then { x with cmd := true } else x) := by
    split
    · exact hx.flags hl true x.esc
    · exact hx
  obtain ⟨hs, hl⟩ := storeIf _ (Receiver.sound_store h.body rfl hm Config.chPlus) (Receiver.store_lead _ _)
  exact flagIf _ hs hl

theorem Receiver.sound_onPlus {r : Receiver} (h : r.sound) : r.onPlus.sound := by
  unfold Receiver.onPlus
  split
  · next hl =>
    obtain ⟨hlen, hesc, hcmd, hm⟩ := h.lookahead (by rw [hl]; nofun)
    exact ⟨h.1.congr, Receiver.ok_of_empty hlen hesc hcmd hm⟩
  · next hl =>
    obtain ⟨-, -, -, hm⟩ := h.lookahead (by rw [hl]; nofun)
    exact Receiver.sound_leadingPair h hm
  · exact h

theorem Receiver.sound_finalize {r : Receiver} (h : r.sound) (hm : r.mode = .normal) : r.finalize.sound := by
  have fresh (x : Receiver) (hx : x.ringOk) (hxm : x.mode = .normal) : x.startLine.sound :=
    ⟨hx.congr, Receiver.ok_of_empty rfl rfl rfl hxm⟩
  unfold Receiver.finalize
  split
  · next hf => exact fresh _ (h.1.publish (Receiver.fits_iff.mp hf)) hm
  · exact fresh _ h.1 hm

theorem Receiver.sound_onDiscard {r : Receiver} (h : r.sound) (hm : r.mode = .discard) (c : Byte) :
    (r.onDiscard c).sound := by
  have hl : r.lead = .body := by
    by_contra hl
    obtain ⟨-, -, -, hn⟩ := h.lookahead hl
    exact absurd (hm.symm.trans hn) nofun
  unfold Receiver.onDiscard
  split
  · exact h.flags hl r.cmd false
  · next hesc =>
    split
    · exact h.flags hl r.cmd true
    · split
      · exact ⟨h.1.congr, Receiver.ok_of_empty rfl (Bool.eq_false_iff.mpr hesc) rfl rfl⟩
      · exact h

/-- One link byte keeps the invariant, whatever its class in the receiver's context (R121). -/
theorem Receiver.sound_rxByte {r : Receiver} (h : r.sound) (c : Byte) : (r.rxByte c).sound := by
  have normal (hd : r.mode ≠ .discard) : r.mode = .normal := by
    cases hm : r.mode with
    | normal => rfl
    | discard => exact absurd hm hd
  unfold Receiver.rxByte Receiver.classOf classify
  split_ifs with hd hesc h1 h2 h3 h4 h5
  · exact Receiver.sound_onDiscard h hd c
  · have hl : r.lead = .body := by
      by_contra hl
      obtain ⟨-, he, -, -⟩ := h.lookahead hl
      rw [he] at hesc; cases hesc
    exact Receiver.sound_store (h.flags hl r.cmd false) hl (normal hd) c
  · exact h.body.flags rfl r.cmd true
  · exact Receiver.sound_leadingPair h (normal hd)
  · exact Receiver.sound_onPlus h
  · exact Receiver.sound_finalize h (normal hd)
  · exact Receiver.sound_finalize h (normal hd)
  · exact Receiver.sound_store h.body rfl (normal hd) c

theorem Receiver.sound_burst {r : Receiver} (h : r.sound) (bs : List Byte) : (r.burst bs).sound := by
  induction bs generalizing r with
  | nil => exact h
  | cons c cs ih =>
    unfold Receiver.burst
    split
    · exact Receiver.sound_rxByte h c
    · exact ih (Receiver.sound_rxByte h c)

/-- A pop frees the bytes of the oldest record and touches nothing in progress (R132). -/
theorem Receiver.sound_popped {r : Receiver} (h : r.sound) : r.popped.sound := by
  obtain ⟨hr, hlen, hfit, hdis, hlead⟩ := h
  obtain ⟨hw, xs, hx⟩ := Receiver.ringOk_iff.mp hr
  obtain ⟨-, -, -, hp⟩ | ⟨x, ys, -, -, hp, hys, hu⟩ := Receiver.records_cases hx
  · rw [hp]; exact ⟨hr, hlen, hfit, hdis, hlead⟩
  · rw [hp] at hys hu ⊢
    refine ⟨Receiver.ringOk_iff.mpr ⟨hw, ys, hys⟩, hlen, fun hm h0 => ?_, hdis, hlead⟩
    have := hfit hm h0
    dsimp only
    omega

/-- The receiver after a `RESET` keeps R30, whatever canonical contents its ring is drawn with (R340). -/
theorem Receiver.sound_reset {ring : List Host.Cell} (h : Memory.wf ring = true) : (Receiver.reset ring).sound := by
  have hu : (Receiver.reset ring).used = 0 := Receiver.isEmpty_iff.mp (decide_eq_true rfl)
  have hx : (Receiver.reset ring).records = some [] := by
    rw [Receiver.records_eq_some, hu]
    exact .nil _
  exact ⟨Receiver.ringOk_iff.mpr ⟨h, [], hx⟩, Receiver.ok_of_empty rfl rfl rfl rfl⟩

/-! ### Every step keeps it -/

theorem State.sound_writtenBy {s : State} (h : s.rx.sound) (i : Instr) : (s.writtenBy i).rx.sound := by
  cases i with
  | popRecord | mainCycle => exact Receiver.sound_popped h
  | rxBurst bs => exact Receiver.sound_burst h bs
  | reset => exact Receiver.sound_reset (Memory.wf_drawnRing s.draws)
  | setConfig w => rw [State.writtenBy]; split <;> exact h
  | _ => exact h

theorem State.sound_writtenAt {s : State} (h : s.rx.sound) (f : Frame) : (s.writtenAt f).rx.sound := by
  unfold State.writtenAt
  split
  · exact Receiver.sound_popped h
  · split <;> exact h
  · exact ⟨h.1.congr, h.2⟩
  · exact h

end Sys2Proof.Machine

section
open Sys2Proof Sys2Proof.Machine

/-- Settles O16: a step leaves the receiver alone or makes one of its writes, and each write keeps `Receiver.sound`. -/
theorem receiverInvariantKept : Obligations.ReceiverInvariantKept := by
  intro s t hs hstep
  rw [State.receiverOk_iff] at hs ⊢
  obtain ⟨q, p, hp, hw⟩ := step_keepsOwned hstep
  have hps : p.rx.sound := by rw [hp]; exact hs
  obtain ⟨i, -, k⟩ | ⟨-, k⟩ := hw
  · rw [k.rx]; exact State.sound_writtenBy hps i
  · rw [k.rx]; exact State.sound_writtenAt hps _

end
end

section
/-!
PROOFS. The configuration ranges (R45, R46, R51, R344), the port histories (R52), and each piece of state with its writers
(R22 to R24, R36, R41, R43, R44, R51, R72): what the writes of `State.writtenBy` and `State.writtenAt` change.
-/

namespace Sys2Proof.Machine

/-! ### The configuration registers -/

theorem ConfigRegs.inRange_write {c : ConfigRegs} (h : c.inRange) {w : ConfigWrite} (hw : configInRange w = true) :
    (c.write w).inRange := by
  obtain ⟨ht, hp, hp', hs⟩ := h
  cases w with
  | myPad v =>
    rw [configInRange, Bool.and_eq_true, decide_eq_true_iff, decide_eq_true_iff] at hw
    exact ⟨ht, hw.1, hw.2, hs⟩
  | mySad v => exact ⟨ht, hp, hp', of_decide_eq_true hw⟩
  | timeoutMs v => exact ⟨of_decide_eq_true hw, hp, hp', hs⟩
  | _ => exact ⟨ht, hp, hp', hs⟩

/-- A store in range gives registers in range, the default timeout included (R344). -/
theorem Store.inRange_regs {c : Store} (h : c.inRange = true) : c.regs.inRange := by
  simp only [Store.inRange, Bool.and_eq_true, decide_eq_true_iff] at h
  obtain ⟨⟨⟨⟨ht, hp⟩, hp'⟩, hs⟩, -⟩ := h
  exact ⟨ht, hp, hp', hs⟩

theorem State.inRange_writtenBy {s : State} (h : s.cfg.inRange) (i : Instr) : (s.writtenBy i).cfg.inRange := by
  cases i with
  | setConfig w =>
    rw [State.writtenBy]
    split
    · next hw => exact ConfigRegs.inRange_write h hw
    · exact h
  | _ => exact h

theorem State.inRange_writtenAt {s : State} (h : s.cfg.inRange) (f : Frame) : (s.writtenAt f).cfg.inRange := by
  unfold State.writtenAt
  split
  · exact h
  · split
    · next hr => exact Store.inRange_regs hr
    · exact h
  · exact h
  · exact h

/-! ### What the receiver's operations leave of the cursors and the ring -/

@[simp] theorem Receiver.popped_head (r : Receiver) : r.popped.head = r.head := by
  unfold Receiver.popped; split <;> rfl

@[simp] theorem Receiver.popped_ring (r : Receiver) : r.popped.ring = r.ring := by
  unfold Receiver.popped; split <;> rfl

@[simp] theorem Receiver.store_rd (r : Receiver) (c : Byte) : (r.store c).rd = r.rd := by
  have hchecked (x : Receiver) : (x.storeChecked c).rd = x.rd := by
    unfold Receiver.storeChecked
    split <;> rfl
  unfold Receiver.store
  split
  · exact hchecked _
  · exact hchecked _

@[simp] theorem Receiver.leadingPair_rd (r : Receiver) : r.leadingPair.rd = r.rd := by
  unfold Receiver.leadingPair
  dsimp only
  split_ifs <;> simp

/-- No byte class moves the read cursor (R23, R136). -/
theorem Receiver.take_rd (r : Receiver) (k : LinkClass) : (r.take k).rd = r.rd := by
  cases k with
  | esc => rfl
  | plus => rw [Receiver.take, Receiver.onPlus]; split <;> simp
  | leadingPlusPair => exact r.leadingPair_rd
  | cr | lf => rw [Receiver.take, Receiver.finalize]; split <;> rfl
  | lit c => exact Receiver.store_rd _ c
  | escaped c => exact Receiver.store_rd _ c
  | discard c => rw [Receiver.take, Receiver.onDiscard]; split_ifs <;> rfl

@[simp] theorem Receiver.burst_rd (r : Receiver) (bs : List Byte) : (r.burst bs).rd = r.rd := by
  induction bs generalizing r with
  | nil => rfl
  | cons c cs ih =>
    unfold Receiver.burst
    split
    · exact r.take_rd _
    · rw [ih]; exact r.take_rd _

/-! ### Who writes each piece of state: a message's instruction -/

theorem State.writtenBy_buffer (s : State) (i : Instr) :
    ((s.writtenBy i).rx.head = s.rx.head ∧ (s.writtenBy i).rx.ring = s.rx.ring) ∨
      (∃ bs, i = .rxBurst bs) ∨ i = .reset := by
  cases i with
  | popRecord | mainCycle => exact .inl ⟨s.rx.popped_head, s.rx.popped_ring⟩
  | rxBurst bs => exact .inr (.inl ⟨bs, rfl⟩)
  | reset => exact .inr (.inr rfl)
  | setConfig w => rw [State.writtenBy]; split <;> exact .inl ⟨rfl, rfl⟩
  | _ => exact .inl ⟨rfl, rfl⟩

theorem State.writtenBy_rd (s : State) (i : Instr) :
    (s.writtenBy i).rx.rd = s.rx.rd ∨ i = .popRecord ∨ i = .mainCycle ∨ i = .reset := by
  cases i with
  | popRecord => exact .inr (.inl rfl)
  | mainCycle => exact .inr (.inr (.inl rfl))
  | reset => exact .inr (.inr (.inr rfl))
  | rxBurst bs => exact .inl (s.rx.burst_rd bs)
  | setConfig w => rw [State.writtenBy]; split <;> exact .inl rfl
  | _ => exact .inl rfl

/-- `SET_CONFIG` writes neither the role nor listen-only mode (R51). -/
theorem ConfigRegs.write_role_listenOnly (c : ConfigRegs) (w : ConfigWrite) :
    (c.write w).role = c.role ∧ (c.write w).listenOnly = c.listenOnly := by
  cases w <;> exact ⟨rfl, rfl⟩

theorem State.writtenBy_role (s : State) (i : Instr) : (s.writtenBy i).cfg.role = s.cfg.role ∨ ∃ r, i = .setRole r := by
  cases i with
  | setRole r => exact .inr ⟨r, rfl⟩
  | setConfig w =>
    rw [State.writtenBy]
    split
    · exact .inl (s.cfg.write_role_listenOnly w).1
    · exact .inl rfl
  | _ => exact .inl rfl

theorem State.writtenBy_listenOnly (s : State) (i : Instr) :
    (s.writtenBy i).cfg.listenOnly = s.cfg.listenOnly ∨ ∃ b, i = .setListenOnly b := by
  cases i with
  | setListenOnly b => exact .inr ⟨b, rfl⟩
  | setConfig w =>
    rw [State.writtenBy]
    split
    · exact .inl (s.cfg.write_role_listenOnly w).2
    · exact .inl rfl
  | _ => exact .inl rfl

theorem State.writtenBy_cfg (s : State) (i : Instr) :
    (s.writtenBy i).cfg = s.cfg ∨ (∃ r, i = .setRole r) ∨
      (∃ b, i = .setListenOnly b) ∨ ∃ w, i = .setConfig w := by
  cases i with
  | setRole r => exact .inr (.inl ⟨r, rfl⟩)
  | setListenOnly b => exact .inr (.inr (.inl ⟨b, rfl⟩))
  | setConfig w => exact .inr (.inr (.inr ⟨w, rfl⟩))
  | _ => exact .inl rfl

theorem State.writtenBy_status (s : State) (i : Instr) :
    (s.writtenBy i).dev.status = s.dev.status ∨ (s.writtenBy i).dev.status = 0x00#8 ∨ ∃ v, i = .setStatus v := by
  cases i with
  | setStatus v => exact .inr (.inr ⟨v, rfl⟩)
  | reset => exact .inr (.inl rfl)
  | setConfig w => rw [State.writtenBy]; split <;> exact .inl rfl
  | _ => exact .inl rfl

theorem State.writtenBy_rem (s : State) (i : Instr) : (s.writtenBy i).rem = s.rem ∨ ∃ d, i = .busDrive d := by
  cases i with
  | busDrive d => exact .inr ⟨d, rfl⟩
  | setConfig w => rw [State.writtenBy]; split <;> exact .inl rfl
  | _ => exact .inl rfl

/-- No instruction writes a port history or the parameters of the launch here: the ports grow beside the write. -/
theorem State.writtenBy_launch (s : State) (i : Instr) :
    (s.writtenBy i).out = s.out ∧ (s.writtenBy i).store = s.store ∧ (s.writtenBy i).par = s.par := by
  cases i with
  | setConfig w => rw [State.writtenBy]; split <;> exact ⟨rfl, rfl, rfl⟩
  | _ => exact ⟨rfl, rfl, rfl⟩

/-! ### Who writes each piece of state: a line of the main loop -/

theorem State.writtenAt_rd (s : State) (f : Frame) : (s.writtenAt f).rx.rd = s.rx.rd ∨ f = .mainCycle .k1 := by
  unfold State.writtenAt
  split
  · exact .inr rfl
  · split <;> exact .inl rfl
  · exact .inl rfl
  · exact .inl rfl

theorem State.writtenAt_cfg (s : State) (f : Frame) : (s.writtenAt f).cfg = s.cfg ∨ f = .boot .b1 := by
  unfold State.writtenAt
  split
  · exact .inl rfl
  · exact .inr rfl
  · exact .inl rfl
  · exact .inl rfl

/-- What no line of the main loop writes: the ring and `head`, `status` beyond clearing it, the environment's lines, the
histories beside their growth, and the launch. -/
theorem State.writtenAt_rest (s : State) (f : Frame) :
    (s.writtenAt f).rx.head = s.rx.head ∧ (s.writtenAt f).rx.ring = s.rx.ring ∧ (s.writtenAt f).dev = s.dev ∧
      (s.writtenAt f).rem = s.rem ∧ (s.writtenAt f).out = s.out ∧ (s.writtenAt f).store = s.store ∧
      (s.writtenAt f).par = s.par := by
  unfold State.writtenAt
  split
  · exact ⟨s.rx.popped_head, s.rx.popped_ring, rfl, rfl, rfl, rfl, rfl⟩
  · split <;> exact ⟨rfl, rfl, rfl, rfl, rfl, rfl, rfl⟩
  · exact ⟨rfl, rfl, rfl, rfl, rfl, rfl, rfl⟩
  · exact ⟨rfl, rfl, rfl, rfl, rfl, rfl, rfl⟩

/-! ### Who writes each piece of state: a step -/

section
variable {s t : State} (hstep : step s = .next t)
include hstep

theorem step_writes_buffer (h : t.rx.head ≠ s.rx.head ∨ t.rx.ring ≠ s.rx.ring) :
    (∃ bs, s.takes (.rxBurst bs)) ∨ s.takes .reset := by
  obtain ⟨q, p, rfl, ⟨i, ht, k⟩ | ⟨-, k⟩⟩ := step_keepsOwned hstep
  · rw [k.rx] at h
    obtain ⟨bs, rfl⟩ | rfl := (State.writtenBy_buffer _ i).resolve_left fun ⟨e, e'⟩ => h.elim (· e) (· e')
    · exact .inl ⟨bs, ht⟩
    · exact .inr ht
  · rw [k.rx] at h
    obtain ⟨e, e', -⟩ := State.writtenAt_rest { s with inbox := q } (State.nextFrame { s with inbox := q })
    exact (h.elim (· e) (· e')).elim

theorem step_writes_rd (h : t.rx.rd ≠ s.rx.rd) :
    s.takes .popRecord ∨ s.takes .mainCycle ∨ s.takes .reset ∨
      ((s.pc = [] ∨ ∃ rest, s.pc = .mainCycle .k1 :: rest) ∧ ∀ i, ¬ s.takes i) := by
  obtain ⟨q, p, rfl, ⟨i, ht, k⟩ | ⟨hn, k⟩⟩ := step_keepsOwned hstep
  · rw [k.rx] at h
    obtain rfl | rfl | rfl := (State.writtenBy_rd _ i).resolve_left h
    · exact .inl ht
    · exact .inr (.inl ht)
    · exact .inr (.inr (.inl ht))
  · rw [k.rx] at h
    have hk1 := (State.writtenAt_rd _ _).resolve_left h
    exact .inr (.inr (.inr ⟨State.nextFrame_k1 hk1, hn⟩))

theorem step_writes_role (h : t.cfg.role ≠ s.cfg.role) :
    (∃ r, s.takes (.setRole r)) ∨ ∃ rest, s.pc = .boot .b1 :: rest := by
  obtain ⟨q, p, rfl, ⟨i, ht, k⟩ | ⟨-, k⟩⟩ := step_keepsOwned hstep
  · rw [k.cfg] at h
    obtain ⟨r, rfl⟩ := (State.writtenBy_role _ i).resolve_left h
    exact .inl ⟨r, ht⟩
  · rw [k.cfg] at h
    have hb1 := (State.writtenAt_cfg _ _).resolve_left fun e => h (congrArg ConfigRegs.role e)
    exact .inr (State.nextFrame_boot hb1)

theorem step_writes_listenOnly (h : t.cfg.listenOnly ≠ s.cfg.listenOnly) :
    (∃ b, s.takes (.setListenOnly b)) ∨ ∃ rest, s.pc = .boot .b1 :: rest := by
  obtain ⟨q, p, rfl, ⟨i, ht, k⟩ | ⟨-, k⟩⟩ := step_keepsOwned hstep
  · rw [k.cfg] at h
    obtain ⟨b, rfl⟩ := (State.writtenBy_listenOnly _ i).resolve_left h
    exact .inl ⟨b, ht⟩
  · rw [k.cfg] at h
    have hb1 := (State.writtenAt_cfg _ _).resolve_left fun e => h (congrArg ConfigRegs.listenOnly e)
    exact .inr (State.nextFrame_boot hb1)

theorem step_writes_cfg (h : t.cfg ≠ s.cfg) :
    (∃ r, s.takes (.setRole r)) ∨ (∃ b, s.takes (.setListenOnly b)) ∨ (∃ w, s.takes (.setConfig w)) ∨
      ∃ rest, s.pc = .boot .b1 :: rest := by
  obtain ⟨q, p, rfl, ⟨i, ht, k⟩ | ⟨-, k⟩⟩ := step_keepsOwned hstep
  · rw [k.cfg] at h
    obtain ⟨r, rfl⟩ | ⟨b, rfl⟩ | ⟨w, rfl⟩ := (State.writtenBy_cfg _ i).resolve_left h
    · exact .inl ⟨r, ht⟩
    · exact .inr (.inl ⟨b, ht⟩)
    · exact .inr (.inr (.inl ⟨w, ht⟩))
  · rw [k.cfg] at h
    exact .inr (.inr (.inr (State.nextFrame_boot ((State.writtenAt_cfg _ _).resolve_left h))))

theorem step_writes_status (h : t.dev.status ≠ s.dev.status) (h0 : t.dev.status ≠ 0x00#8) :
    ∃ v, s.takes (.setStatus v) := by
  obtain ⟨q, p, rfl, ⟨i, ht, k⟩ | ⟨-, k⟩⟩ := step_keepsOwned hstep
  · rw [k.status.resolve_right h0] at h h0
    obtain ⟨v, rfl⟩ := ((State.writtenBy_status _ i).resolve_left h).resolve_left h0
    exact ⟨v, ht⟩
  · obtain ⟨-, -, e, -⟩ := State.writtenAt_rest { s with inbox := q } (State.nextFrame { s with inbox := q })
    rw [k.status.resolve_right h0, e] at h
    exact absurd rfl h

theorem step_writes_rem (h : t.rem ≠ s.rem) : ∃ d, s.takes (.busDrive d) := by
  obtain ⟨q, p, rfl, ⟨i, ht, k⟩ | ⟨-, k⟩⟩ := step_keepsOwned hstep
  · rw [k.rem] at h
    obtain ⟨d, rfl⟩ := (State.writtenBy_rem _ i).resolve_left h
    exact ⟨d, ht⟩
  · obtain ⟨-, -, -, e, -⟩ := State.writtenAt_rest { s with inbox := q } (State.nextFrame { s with inbox := q })
    rw [k.rem] at h
    exact absurd e h

/-- The store and the launch parameters are written by nobody (R7). -/
theorem step_keeps_launch : t.store = s.store ∧ t.par = s.par := by
  obtain ⟨q, p, rfl, ⟨i, -, k⟩ | ⟨-, k⟩⟩ := step_keepsOwned hstep
  · obtain ⟨-, hs, hp⟩ := State.writtenBy_launch { s with inbox := q } i
    exact ⟨k.store.trans hs, k.par.trans hp⟩
  · obtain ⟨-, -, -, -, -, hs, hp⟩ :=
      State.writtenAt_rest { s with inbox := q } (State.nextFrame { s with inbox := q })
    exact ⟨k.store.trans hs, k.par.trans hp⟩

end

end Sys2Proof.Machine

section
open Sys2Proof Sys2Proof.Machine

/-- Settles O57: `SET_CONFIG` and boot check the range before they write, and nothing else writes these registers. -/
theorem configStaysInRange : Obligations.ConfigStaysInRange := by
  intro s t hs hstep
  obtain ⟨q, p, hp, hw⟩ := step_keepsOwned hstep
  have hps : p.cfg.inRange := by rw [hp]; exact hs
  obtain ⟨i, -, k⟩ | ⟨-, k⟩ := hw
  · rw [k.cfg]; exact State.inRange_writtenBy hps i
  · rw [k.cfg]; exact State.inRange_writtenAt hps _

/-- Settles O58: no write touches a history, and beside the write a history only grows. -/
theorem portHistoriesGrow : Obligations.PortHistoriesGrow := by
  intro s t hstep
  obtain ⟨q, p, hp, hw⟩ := step_keepsOwned hstep
  have hout : p.out = s.out := by rw [hp]
  rw [← hout]
  obtain ⟨i, -, k⟩ | ⟨-, k⟩ := hw
  · obtain ⟨h, -, -⟩ := p.writtenBy_launch i
    exact h ▸ k.out
  · obtain ⟨-, -, -, -, h, -, -⟩ := p.writtenAt_rest p.nextFrame
    exact h ▸ k.out

/-- Settles O59: a changed piece of state was written by the instruction taken or, when none was, by the line run, and each
of the two writes that piece in the named cases only. -/
theorem onlyTheirWritersWrite : Obligations.OnlyTheirWritersWrite := by
  intro s t hstep
  exact ⟨step_writes_buffer hstep, step_writes_rd hstep, step_writes_role hstep, step_writes_listenOnly hstep,
    step_writes_cfg hstep, step_writes_status hstep, step_writes_rem hstep, step_keeps_launch hstep⟩

end
end

section
/-!
PROOFS. What a step runs (R21, R285, R286), the rule of `SET_CONFIG` (R45 to R51) and the state after power-on (R53, R340).
-/

namespace Sys2Proof.Machine

/-! ### Which instruction a decoded byte runs -/

/-- A decoded command byte runs as `apply` of its command (R241). -/
theorem exec_cmd (c : Cmd) (s : State) : exec c.toInstr s = .next (applyCmd c s) := by
  cases c <;> rfl

/-- A classified link byte runs as the receiver's transition of its class (R121). -/
theorem exec_linkClass (k : LinkClass) (s : State) : exec k.toInstr s = .next { s with rx := s.rx.take k } := by
  cases k <;> rfl

/-- A burst of one byte has nothing behind it to drain (R120, R130). -/
theorem Receiver.burst_singleton (r : Receiver) (b : Byte) : r.burst [b] = r.take (r.classOf b) := by
  unfold Receiver.burst
  split <;> rfl

theorem exec_rxBurst {bs : List Byte} {s : State} (h : bs.length ≤ s.par.rxBurstMax) :
    exec (.rxBurst bs) s = .next { s with rx := s.rx.burst bs } := if_pos h

theorem applyReceived_byte {s : State} {b : Byte} {eoi : Bool} (h : s.ret = .okByteEoi b eoi) :
    applyReceived s = applyCmd (decodeCommand s.par.maskDio8 b) s := by
  unfold applyReceived
  rw [h]

/-- Line `v2` with the byte received runs the byte's command, with the cycle at its line `v5` (R240, R241). -/
theorem mainStep_receivedCommand {s : State} {rest : List Frame} {b : Byte} {eoi : Bool}
    (hp : s.pc = .deviceCycle .v2Ret :: rest) (hr : s.ret = .okByteEoi b eoi) :
    mainStep s = exec (decodeCommand s.par.maskDio8 b).toInstr { s with pc := .deviceCycle .v5 :: rest } := by
  rw [exec_cmd, mainStep, hp]
  exact congrArg Host.Outcome.next (applyReceived_byte (s := s.goto (.deviceCycle .v5 :: rest)) hr)

/-! ### The two ends of `SET_CONFIG` (R51) -/

/-- A value in range is written to its field, and the field is named to the store. -/
theorem exec_setConfig_inRange {s : State} {w : ConfigWrite} (hpc : s.pc = []) (hw : configInRange w = true) :
    exec (.setConfig w) s = .next (({ s with cfg := s.cfg.write w }.emitPersist (configField w)).returned .ok) := by
  have h : exec (.setConfig w) s = .next (changeConfig w s) := State.accept_idle _ hpc
  rw [h, changeConfig, if_pos hw]
  rfl

/-- A value out of range changes no field. -/
theorem exec_setConfig_outOfRange {s : State} {w : ConfigWrite} (hpc : s.pc = []) (hw : configInRange w = false) :
    exec (.setConfig w) s = .next (s.returned (.err .invalidConfig)) := by
  have h : exec (.setConfig w) s = .next (changeConfig w s) := State.accept_idle _ hpc
  rw [h, changeConfig, if_neg (by rw [hw]; nofun)]
  rfl

/-- Both ends at once, with the range as a proposition. -/
theorem exec_setConfig {s : State} {w : ConfigWrite} (hpc : s.pc = []) {P : Prop} [Decidable P]
    (hw : configInRange w = decide P) :
    exec (.setConfig w) s = .next (if P then
      ({ s with cfg := s.cfg.write w }.emitPersist (configField w)).returned .ok
      else s.returned (.err .invalidConfig)) := by
  split
  · next hP => exact exec_setConfig_inRange hpc (hw.trans (decide_eq_true hP))
  · next hP => exact exec_setConfig_outOfRange hpc (hw.trans (decide_eq_false hP))

end Sys2Proof.Machine

section
open Sys2Proof Sys2Proof.Machine

/-- Settles O6: the lemmas about `step`, `ownStep`, `mainStep` and the two inner decoders, put together. -/
theorem stepRunsDecodedInstruction : Obligations.StepRunsDecodedInstruction := by
  intro s
  refine ⟨fun bs q i hq hd => ⟨fun ha => ?_, fun ha ht => ?_, fun ha ht => ?_⟩, fun q hq => step_pass hq,
    fun hq ht => ?_, fun hq ht => ?_, tickDue_iff, fun f rest hp => ?_, fun hp => ?_,
    fun rest b eoi hp hr => mainStep_receivedCommand hp hr, fun b hb => ?_⟩
  · rw [step_message hq hd, if_pos ha]
  · rw [step_message hq hd, if_neg (by rw [ha]; nofun), ownStep_notDue ht]
  · rw [step_message hq hd, if_neg (by rw [ha]; nofun), ownStep_due ht]
  · rw [step_nil hq, ownStep_notDue ht]
  · rw [step_nil hq, ownStep_due ht]
  · rw [mainStep, hp]
  · rw [mainStep, hp]; rfl
  · rw [exec_rxBurst (bs := [b]) hb, exec_linkClass, Receiver.burst_singleton]; rfl

/-- Settles O43: each field's range check, its one write and the name it hands to the store. -/
theorem setConfigRule : Obligations.SetConfigRule := by
  intro s hpc
  refine ⟨fun v => exec_setConfig hpc (Bool.decide_and _ _).symm, fun v => exec_setConfig hpc rfl,
    fun v => exec_setConfig_inRange hpc rfl, fun v => exec_setConfig hpc rfl, fun v => exec_setConfig_inRange hpc rfl,
    fun v => ?_, fun v => exec_setConfig_inRange hpc rfl, fun v => exec_setConfig_inRange hpc rfl,
    fun v => exec_setConfig_inRange hpc rfl⟩
  rw [BitVec.ofNat_toNat]
  exact exec_setConfig hpc rfl

/-- Settles O60: no line is driven, no flag is set and the ring is empty; boot's line `b1` stands alone on the stack. -/
theorem resetStateMeetsInvariants : Obligations.ResetStateMeetsInvariants := by
  have hrx : State.reset.receiverOk := State.receiverOk_iff.mpr (Receiver.sound_reset rfl)
  have hdirections : State.reset.directionsOk := by unfold State.directionsOk; decide
  have hdrives : State.reset.drivesConsistent := by unfold State.drivesConsistent; decide
  have hflags : State.reset.flagsHeld := by unfold State.flagsHeld; decide
  have hcfg : State.reset.cfg.inRange := Store.inRange_regs (by decide)
  exact ⟨hrx, nofun, rfl, rfl, hdirections, hdrives, rfl, rfl, ⟨rfl, rfl⟩, hflags, hcfg⟩

end
end

section
/-!
PROOFS. What a burst leaves of the unread records (R69, R136).  `unreadKept` is the frame of one operation, and `roomy` is
the one bound of R30 it rests on; no other part of the receiver's invariant is needed.
-/

namespace Sys2Proof.Machine

/-! ### The frame and the bound it rests on -/

/-- Every byte of an unread record of `r` reads the same in `r'`, and is still a byte of an unread record there. -/
def Receiver.unreadKept (r r' : Receiver) : Prop :=
  ∀ a, r.occupied a → r'.memRead a = r.memRead a ∧ r'.occupied a

/-- Rule R30 (b): in `Normal` mode a record in progress that holds a byte has room for its header. -/
def Receiver.roomy (r : Receiver) : Prop :=
  r.mode = .normal → 0 < r.len.toNat → r.used + 2 + r.len.toNat ≤ 255

theorem Receiver.unreadKept.trans {r r' r'' : Receiver} (h : r.unreadKept r') (h' : r'.unreadKept r'') :
    r.unreadKept r'' := by
  intro a ha
  obtain ⟨hread, hocc⟩ := h a ha
  obtain ⟨hread', hocc'⟩ := h' a hocc
  exact ⟨hread'.trans hread, hocc'⟩

/-- The ring and the cursors alone say which bytes are unread and what they read. -/
theorem Receiver.unreadKept_of_eq {r r' : Receiver} (hring : r'.ring = r.ring := by rfl)
    (hrd : r'.rd = r.rd := by rfl) (hhead : r'.head = r.head := by rfl) : r.unreadKept r' := by
  intro a ha
  refine ⟨by rw [Receiver.memRead, Receiver.memRead, hring], ?_⟩
  rwa [Receiver.occupied, Receiver.used, hrd, hhead]

/-- A record in progress without a byte is roomy. -/
theorem Receiver.roomy_of_len_zero {r : Receiver} (h : r.len = 0#8) : r.roomy := by
  intro _ hpos
  rw [h] at hpos
  exact absurd hpos (by decide)

/-- A record whose header fits is written past the unread ones (R69, R127). -/
theorem Receiver.unreadKept_publish {r : Receiver} (hf : r.used + 2 + r.len.toNat ≤ 255) :
    r.unreadKept r.publish := by
  intro a ha
  have hocc : r.publish.occupied a := by
    change (a - r.rd).toNat < r.publish.used
    rw [Receiver.used_publish hf]
    exact Nat.lt_of_lt_of_le ha (Nat.le_add_right _ _)
  rw [Receiver.occupied, Receiver.used] at ha
  rw [Receiver.used] at hf
  exact ⟨r.memRead_writeHeader_other (by bv_omega) (by bv_omega) r.len, hocc⟩

/-- A payload byte that does not collide goes to a free byte (R69, R125). -/
theorem Receiver.unreadKept_append {r : Receiver} (hc : r.used + 2 + r.len.toNat + 1 ≤ 255) (c : Byte) :
    r.unreadKept (r.append c) := by
  intro a ha
  refine ⟨r.memRead_memWrite_other ?_ c, ha⟩
  rw [Receiver.occupied, Receiver.used] at ha
  rw [Receiver.used] at hc
  bv_omega

/-! ### Each operation keeps the unread bytes and the bound -/

/-- The step relation of this proof: the unread bytes of `r` are kept, and `r'` can take the next byte. -/
def Receiver.framedTo (r r' : Receiver) : Prop := r.unreadKept r' ∧ r'.roomy

theorem Receiver.framedTo.trans {r r' r'' : Receiver} (h : r.framedTo r') (h' : r'.framedTo r'') : r.framedTo r'' :=
  ⟨h.1.trans h'.1, h'.2⟩

/-- The lookahead and the flags do not matter to the frame. -/
theorem Receiver.roomy.framedTo_flags {r : Receiver} (h : r.roomy) (cmd esc : Bool) (lead : RxLead) :
    r.framedTo { r with cmd := cmd, esc := esc, lead := lead } :=
  ⟨Receiver.unreadKept_of_eq, h⟩

/-- The collision check decides on its own: what it drops leaves the ring, what it stores has room (R125). -/
theorem Receiver.framedTo_storeChecked (r : Receiver) (c : Byte) : r.framedTo (r.storeChecked c) := by
  unfold Receiver.storeChecked
  split
  · exact ⟨Receiver.unreadKept_of_eq, nofun⟩
  · next hc =>
    have hc := Receiver.collides_false.mp (Bool.eq_false_iff.mpr hc)
    refine ⟨Receiver.unreadKept_append hc c, fun _ _ => ?_⟩
    have hlen : (r.len + 1#8).toNat = r.len.toNat + 1 := by bv_omega
    change r.used + 2 + (r.len + 1#8).toNat ≤ 255
    omega

/-- A full record is flushed first, with no check of its own: there R30 (b) gives the room (R125, R128). -/
theorem Receiver.roomy.framedTo_store {r : Receiver} (h : r.roomy) (hm : r.mode = .normal) (c : Byte) :
    r.framedTo (r.store c) := by
  unfold Receiver.store
  split
  · next h253 =>
    have h253 : r.len.toNat = 253 := h253
    rw [Receiver.forceFlush_eq h253]
    have hflush : r.unreadKept { r.publish with len := 0#8 } :=
      (Receiver.unreadKept_publish (h hm (by omega))).trans Receiver.unreadKept_of_eq
    obtain ⟨hstore, hroomy⟩ := Receiver.framedTo_storeChecked { r.publish with len := 0#8 } c
    exact ⟨hflush.trans hstore, hroomy⟩
  · exact r.framedTo_storeChecked c

/-- Two stores, the second only when the first did not collide, then the flag (R124). -/
theorem Receiver.roomy.framedTo_leadingPair {r : Receiver} (h : r.roomy) (hm : r.mode = .normal) :
    r.framedTo r.leadingPair := by
  have storeIf (x : Receiver) (hx : x.roomy) :
      x.framedTo (if x.mode = .normal then x.store Config.chPlus else x) := by
    split
    · next hn => exact hx.framedTo_store hn _
    · exact hx.framedTo_flags _ _ _
  have flagIf (x : Receiver) (hx : x.roomy) : x.framedTo (if x.mode = .normal then { x with cmd := true } else x) := by
    split
    · exact hx.framedTo_flags _ _ _
    · exact hx.framedTo_flags _ _ _
  have hbody := h.framedTo_flags r.cmd r.esc .body
  have hfirst := hbody.trans (hbody.2.framedTo_store hm Config.chPlus)
  have hsecond := hfirst.trans (storeIf _ hfirst.2)
  exact hsecond.trans (flagIf _ hsecond.2)

/-- The record is published when it fits and dropped when it does not; the next line holds no byte (R127). -/
theorem Receiver.framedTo_finalize (r : Receiver) : r.framedTo r.finalize := by
  unfold Receiver.finalize
  split
  · next hf =>
    exact ⟨(Receiver.unreadKept_publish (Receiver.fits_iff.mp hf)).trans Receiver.unreadKept_of_eq,
      Receiver.roomy_of_len_zero rfl⟩
  · exact ⟨Receiver.unreadKept_of_eq, Receiver.roomy_of_len_zero rfl⟩

/-- `Discard` mode stores nothing, and its terminator leaves no byte in progress (R129). -/
theorem Receiver.roomy.framedTo_onDiscard {r : Receiver} (h : r.roomy) (c : Byte) : r.framedTo (r.onDiscard c) := by
  unfold Receiver.onDiscard
  split_ifs
  · exact h.framedTo_flags r.cmd false r.lead
  · exact h.framedTo_flags r.cmd true r.lead
  · exact ⟨Receiver.unreadKept_of_eq, Receiver.roomy_of_len_zero rfl⟩
  · exact h.framedTo_flags r.cmd r.esc r.lead

/-- A byte is taken in `Normal` mode, or its class is `Discard` (R121). -/
theorem Receiver.normal_or_classOf_discard (r : Receiver) (c : Byte) :
    r.mode = .normal ∨ r.classOf c = .discard c := by
  cases hm : r.mode with
  | normal => exact .inl rfl
  | discard => exact .inr (by rw [Receiver.classOf, classify, if_pos hm])

/-- One transition per class; the classes that store are those of `Normal` mode (R121). -/
theorem Receiver.roomy.framedTo_take {r : Receiver} (h : r.roomy) {k : LinkClass}
    (hk : r.mode = .normal ∨ ∃ c, k = .discard c) : r.framedTo (r.take k) := by
  obtain hm | ⟨c, rfl⟩ := hk
  · cases k with
    | esc => exact h.framedTo_flags r.cmd true .body
    | plus =>
      rw [Receiver.take, Receiver.onPlus]
      split
      · exact h.framedTo_flags r.cmd r.esc .onePlus
      · exact h.framedTo_leadingPair hm
      · exact h.framedTo_flags r.cmd r.esc r.lead
    | leadingPlusPair => exact h.framedTo_leadingPair hm
    | cr | lf => exact r.framedTo_finalize
    | lit c =>
      have hbody := h.framedTo_flags r.cmd r.esc .body
      exact hbody.trans (hbody.2.framedTo_store hm c)
    | escaped c =>
      have hunarmed := h.framedTo_flags r.cmd false r.lead
      exact hunarmed.trans (hunarmed.2.framedTo_store hm c)
    | discard c => exact h.framedTo_onDiscard c
  · exact h.framedTo_onDiscard c

theorem Receiver.roomy.framedTo_rxByte {r : Receiver} (h : r.roomy) (c : Byte) : r.framedTo (r.rxByte c) :=
  h.framedTo_take ((r.normal_or_classOf_discard c).imp_right fun hk => ⟨c, hk⟩)

theorem Receiver.roomy.framedTo_burst {r : Receiver} (h : r.roomy) (bs : List Byte) : r.framedTo (r.burst bs) := by
  induction bs generalizing r with
  | nil => exact h.framedTo_flags r.cmd r.esc r.lead
  | cons c cs ih =>
    have hc := h.framedTo_rxByte c
    unfold Receiver.burst
    split
    · exact hc
    · exact hc.trans (ih hc.2)

/-- An answered `RX_BURST` runs the receiver's burst and changes nothing else (R120). -/
theorem exec_rxBurst_next {s t : State} {bs : List Byte} (h : exec (.rxBurst bs) s = .next t) :
    t = { s with rx := s.rx.burst bs } := by
  by_cases hb : bs.length ≤ s.par.rxBurstMax
  · rw [exec_rxBurst hb] at h
    exact (Host.Outcome.next.inj h).symm
  · exact absurd ((if_neg hb).symm.trans h) nofun

end Sys2Proof.Machine

section
open Sys2Proof Sys2Proof.Machine

/-- Settles O15: no byte of a burst moves `rd`, and by induction on the bytes each is stored past the unread records; the
room for a forced flush, the one write without a check, is R30 (b). -/
theorem burstLeavesUnreadRecords : Obligations.BurstLeavesUnreadRecords := by
  intro s t bs hok hexec
  obtain rfl := exec_rxBurst_next hexec
  obtain ⟨-, hroomy, -⟩ := hok
  obtain ⟨hkept, -⟩ := Receiver.roomy.framedTo_burst hroomy bs
  exact ⟨s.rx.burst_rd bs, hkept⟩

end
end

section
/-!
PROOFS. The request and event interface and the two byte interfaces (R91, R92, R95, R100, R101, R103).  Each operand has
one equivalence that says exactly what its decoder accepts: read one way it gives the round trip, the other way that
nothing else is accepted.
-/

namespace Sys2Proof

/-! ### Operands: what each decoder accepts -/

theorem decodeBool_eq_some {b : Byte} {x : Bool} : decodeBool b = some x ↔ b = boolByte x := by
  constructor
  · intro h
    unfold decodeBool at h
    split_ifs at h <;> cases h <;> assumption
  · rintro rfl
    cases x <;> rfl

theorem decodeRole_eq_some {b : Byte} {x : Role} : decodeRole b = some x ↔ b = x.code := by
  constructor
  · intro h
    unfold decodeRole at h
    split_ifs at h <;> cases h <;> assumption
  · rintro rfl
    cases x <;> rfl

theorem decodeDirection_eq_some {b : Byte} {x : Direction} : decodeDirection b = some x ↔ b = x.code := by
  constructor
  · intro h
    unfold decodeDirection at h
    split_ifs at h <;> cases h <;> assumption
  · rintro rfl
    cases x <;> rfl

theorem decodeRecvMode_eq_some {b : Byte} {x : RecvMode} : decodeRecvMode b = some x ↔ b = x.code := by
  constructor
  · intro h
    unfold decodeRecvMode at h
    split_ifs at h <;> cases h <;> assumption
  · rintro rfl
    cases x <;> rfl

theorem decodeLine_eq_some {b : Byte} {x : Option Bool} : decodeLine b = some x ↔ b = lineByte x := by
  constructor
  · intro h
    unfold decodeLine at h
    split_ifs at h <;> cases h <;> assumption
  · rintro rfl
    cases x with
    | none => rfl
    | some on => cases on <;> rfl

theorem decodeDio_eq_some {ops : List Byte} {x : Option Byte} : decodeDio ops = some x ↔ ops = dioBytes x := by
  constructor
  · intro h
    unfold decodeDio at h
    split at h
    · split_ifs at h with ht
      cases h; rw [ht]; rfl
    · split_ifs at h with ht
      cases h; rw [ht]; rfl
    · cases h
  · rintro rfl
    cases x <;> rfl

theorem decodeTargets_targetBytes (ts : List Target) : decodeTargets (targetBytes ts) = some ts := by
  induction ts with
  | nil => rfl
  | cons t ts ih => rw [targetBytes, decodeTargets, decodeBool_eq_some.mpr rfl, ih]

theorem decodeTargets_eq_some {ops : List Byte} {ts : List Target} :
    decodeTargets ops = some ts ↔ ops = targetBytes ts := by
  constructor
  · intro h
    induction ops using decodeTargets.induct generalizing ts with
    | case1 => cases h; rfl
    | case2 pad sad u rest useSad xs hxs hu ih =>
      rw [decodeTargets, hu, hxs] at h
      cases h
      rw [targetBytes, ← ih hxs, ← decodeBool_eq_some.mp hu]
    | case3 pad sad u rest hnone =>
      rw [decodeTargets] at h
      split at h
      · next hu hxs => exact (hnone _ _ hu hxs).elim
      · cases h
    | case4 | case5 => cases h
  · rintro rfl
    exact decodeTargets_targetBytes ts

/-- The two bytes of a `u16`, put together again. -/
theorem high_append_low (v : Word16) : (v >>> 8).setWidth 8 ++ v.setWidth 8 = v := by
  rw [BitVec.setWidth_ushiftRight_eq_extractLsb, BitVec.setWidth_eq_extractLsb' (by decide)]
  exact BitVec.extractLsb'_append_extractLsb' (w := 8) (len := 8)

theorem high_of_append (hi lo : Byte) : ((hi ++ lo : Word16) >>> 8).setWidth 8 = hi := by
  rw [BitVec.setWidth_ushiftRight_eq_extractLsb]
  exact BitVec.extractLsb'_append_eq_left

theorem decodeConfigWrite_eq_some {ops : List Byte} {w : ConfigWrite} :
    decodeConfigWrite ops = some w ↔ ops = w.bytes := by
  constructor
  · intro h
    have ofBool {f v : Byte} {g : Bool → ConfigWrite} (hg : ∀ x, (g x).bytes = [f, boolByte x])
        (h : (decodeBool v).map g = some w) : [f, v] = w.bytes := by
      obtain ⟨x, hx, rfl⟩ := Option.map_eq_some_iff.mp h
      rw [hg, decodeBool_eq_some.mp hx]
    unfold decodeConfigWrite at h
    split at h
    · split_ifs at h with h0 h1 h2 h4 h5 h6 h7 h8
      · cases h; rw [h0]; rfl
      · cases h; rw [h1]; rfl
      · rw [h2]; exact ofBool (fun _ => rfl) h
      · rw [h4]; exact ofBool (fun _ => rfl) h
      · cases h; rw [h5]; rfl
      · rw [h6]; exact ofBool (fun _ => rfl) h
      · cases h; rw [h7]; rfl
      · rw [h8]; exact ofBool (fun _ => rfl) h
    · split_ifs at h with h3
      cases h
      rw [h3, ConfigWrite.bytes, high_of_append, BitVec.setWidth_append_eq_right]
    · cases h
  · rintro rfl
    have ofBool (x : Bool) (g : Bool → ConfigWrite) : (decodeBool (boolByte x)).map g = some (g x) := by
      rw [decodeBool_eq_some.mpr rfl, Option.map_some]
    cases w with
    | myPad v | mySad v | eosMode v | eotChar v => rfl
    | sadValid x | eoiUse x | eotEnable x | autoRead x => exact ofBool x _
    | timeoutMs v => exact congrArg (fun x => some (ConfigWrite.timeoutMs x)) (high_append_low v)

/-! ### Messages: what each decoder accepts -/

theorem typed_eq_ok {o : Option Instr} {i : Instr} : typed o = .ok i ↔ o = some i := by
  cases o with
  | none => exact ⟨nofun, nofun⟩
  | some j => exact ⟨fun h => by cases h; rfl, fun h => by cases h; rfl⟩

/-- A message with one typed operand decodes when the operand does. -/
theorem typed_map_eq_ok {α : Type} {o : Option α} {g : α → Instr} {i : Instr} :
    typed (o.map g) = .ok i ↔ ∃ x, o = some x ∧ g x = i := by
  rw [typed_eq_ok, Option.map_eq_some_iff]

theorem noOperands_eq_ok {ops : List Byte} {j i : Instr} : noOperands j ops = .ok i ↔ ops = [] ∧ j = i := by
  cases ops with
  | nil => exact ⟨fun h => by cases h; exact ⟨rfl, rfl⟩, fun ⟨_, h⟩ => by rw [h]; rfl⟩
  | cons b bs => exact ⟨nofun, nofun⟩

/-- Behind code byte `code`, the operand bytes `ops` make a whole message, the one encoding of `i`. -/
structure Instr.EncodedAs (i : Instr) (code : Byte) (ops : List Byte) : Prop where
  wf : i.wf = true := by rfl
  bytes : encode i = code :: ops := by rfl
  port : i.port = .request := by rfl

section
variable {ops : List Byte} {i : Instr}

theorem noOperands_encodedAs {j : Instr} {code : Byte} (h : noOperands j ops = .ok i) (hj : j.EncodedAs code []) :
    i.EncodedAs code ops := by
  obtain ⟨rfl, rfl⟩ := noOperands_eq_ok.mp h
  exact hj

theorem decodeSendByte_encodedAs (h : decodeSendByte ops = .ok i) : i.EncodedAs 0x01#8 ops := by
  unfold decodeSendByte at h
  split at h
  · obtain ⟨e, he, rfl⟩ := typed_map_eq_ok.mp h
    rw [decodeBool_eq_some.mp he]; exact {}
  · cases h

theorem decodeSendCommand_encodedAs (h : decodeSendCommand ops = .ok i) : i.EncodedAs 0x03#8 ops := by
  unfold decodeSendCommand at h
  split at h
  · cases h; exact {}
  · cases h

theorem decodeSendData_encodedAs (h : decodeSendData ops = .ok i) : i.EncodedAs 0x04#8 ops := by
  unfold decodeSendData at h
  split at h
  · obtain ⟨e, he, rfl⟩ := typed_map_eq_ok.mp h
    rw [decodeBool_eq_some.mp he]; exact {}
  · cases h

theorem decodeReceiveMessage_encodedAs (h : decodeReceiveMessage ops = .ok i) : i.EncodedAs 0x05#8 ops := by
  unfold decodeReceiveMessage at h
  split at h
  · obtain ⟨mode, hm, rfl⟩ := typed_map_eq_ok.mp h
    rw [decodeRecvMode_eq_some.mp hm]; exact {}
  · cases h

theorem decodeAddressingSetup_encodedAs (h : decodeAddressingSetup ops = .ok i) : i.EncodedAs 0x06#8 ops := by
  unfold decodeAddressingSetup at h
  split at h
  · split at h
    · next hu hd =>
      cases h
      rw [decodeBool_eq_some.mp hu, decodeDirection_eq_some.mp hd]; exact {}
    · cases h
  · cases h

theorem decodeReadStatusByte_encodedAs (h : decodeReadStatusByte ops = .ok i) : i.EncodedAs 0x07#8 ops := by
  unfold decodeReadStatusByte at h
  split at h
  · obtain ⟨u, hu, rfl⟩ := typed_map_eq_ok.mp h
    rw [decodeBool_eq_some.mp hu]; exact {}
  · cases h

theorem decodeGroupTrigger_encodedAs (h : decodeGroupTrigger ops = .ok i) : i.EncodedAs 0x09#8 ops := by
  unfold decodeGroupTrigger at h
  split at h
  · next hts =>
    split_ifs at h with hlen
    cases h
    rw [decodeTargets_eq_some.mp hts]; exact { wf := decide_eq_true hlen }
  · cases h

theorem decodeSetRole_encodedAs (h : decodeSetRole ops = .ok i) : i.EncodedAs 0x0E#8 ops := by
  unfold decodeSetRole at h
  split at h
  · obtain ⟨r, hr, rfl⟩ := typed_map_eq_ok.mp h
    rw [decodeRole_eq_some.mp hr]; exact {}
  · cases h

theorem decodeSetListenOnly_encodedAs (h : decodeSetListenOnly ops = .ok i) : i.EncodedAs 0x0F#8 ops := by
  unfold decodeSetListenOnly at h
  split at h
  · obtain ⟨on, hb, rfl⟩ := typed_map_eq_ok.mp h
    rw [decodeBool_eq_some.mp hb]; exact {}
  · cases h

theorem decodeSetStatus_encodedAs (h : decodeSetStatus ops = .ok i) : i.EncodedAs 0x10#8 ops := by
  unfold decodeSetStatus at h
  split at h
  · cases h; exact {}
  · cases h

theorem decodeSetSrq_encodedAs (h : decodeSetSrq ops = .ok i) : i.EncodedAs 0x11#8 ops := by
  unfold decodeSetSrq at h
  split at h
  · obtain ⟨on, hb, rfl⟩ := typed_map_eq_ok.mp h
    rw [decodeBool_eq_some.mp hb]; exact {}
  · cases h

theorem decodeSetConfig_encodedAs (h : decodeSetConfig ops = .ok i) : i.EncodedAs 0x12#8 ops := by
  obtain ⟨w, hw, rfl⟩ := typed_map_eq_ok.mp h
  rw [decodeConfigWrite_eq_some.mp hw]; exact {}

theorem decodeRxBurst_encodedAs (h : decodeRxBurst ops = .ok i) : i.EncodedAs 0x80#8 ops := by
  unfold decodeRxBurst at h
  split at h
  · cases h
  · cases h; exact {}

theorem decodeBusDrive_encodedAs (h : decodeBusDrive ops = .ok i) : i.EncodedAs 0x82#8 ops := by
  unfold decodeBusDrive at h
  split at h
  · split at h
    · next ha hd he hn hk hi hq hr hv =>
      cases h
      rw [decodeLine_eq_some.mp ha, decodeLine_eq_some.mp hd, decodeLine_eq_some.mp he, decodeLine_eq_some.mp hn,
        decodeLine_eq_some.mp hk, decodeLine_eq_some.mp hi, decodeLine_eq_some.mp hq, decodeLine_eq_some.mp hr,
        decodeDio_eq_some.mp hv]
      exact {}
    · cases h
  · cases h

/-- A code byte is known by its number. -/
theorem Instr.EncodedAs.of_toNat {code : Byte} {n : Nat} (hc : code.toNat = n)
    (h : i.EncodedAs (BitVec.ofNat 8 n) ops) : i.EncodedAs code ops := by
  rw [← hc, BitVec.ofNat_toNat, BitVec.setWidth_eq] at h
  exact h

/-- Every accepted message is an encoding, row by row of the tables of R100 and R101. -/
theorem decodeMessage_encodedAs {code : Byte} (h : decodeMessage (code :: ops) = .ok i) : i.EncodedAs code ops := by
  dsimp only [decodeMessage] at h
  split at h
  · exact .of_toNat ‹_› (decodeSendByte_encodedAs h)
  · exact .of_toNat ‹_› (noOperands_encodedAs h {})
  · exact .of_toNat ‹_› (decodeSendCommand_encodedAs h)
  · exact .of_toNat ‹_› (decodeSendData_encodedAs h)
  · exact .of_toNat ‹_› (decodeReceiveMessage_encodedAs h)
  · exact .of_toNat ‹_› (decodeAddressingSetup_encodedAs h)
  · exact .of_toNat ‹_› (decodeReadStatusByte_encodedAs h)
  · exact .of_toNat ‹_› (noOperands_encodedAs h {})
  · exact .of_toNat ‹_› (decodeGroupTrigger_encodedAs h)
  · exact .of_toNat ‹_› (noOperands_encodedAs h {})
  · exact .of_toNat ‹_› (noOperands_encodedAs h {})
  · exact .of_toNat ‹_› (noOperands_encodedAs h {})
  · exact .of_toNat ‹_› (noOperands_encodedAs h {})
  · exact .of_toNat ‹_› (decodeSetRole_encodedAs h)
  · exact .of_toNat ‹_› (decodeSetListenOnly_encodedAs h)
  · exact .of_toNat ‹_› (decodeSetStatus_encodedAs h)
  · exact .of_toNat ‹_› (decodeSetSrq_encodedAs h)
  · exact .of_toNat ‹_› (decodeSetConfig_encodedAs h)
  · exact .of_toNat ‹_› (decodeRxBurst_encodedAs h)
  · exact .of_toNat ‹_› (noOperands_encodedAs h {})
  · exact .of_toNat ‹_› (decodeBusDrive_encodedAs h)
  · exact .of_toNat ‹_› (noOperands_encodedAs h {})
  · cases h

end

/-! ### Messages: the round trip -/

theorem decodeAddressingSetup_bytes (pad sad : Byte) (u : Bool) (d : Direction) :
    decodeAddressingSetup [pad, sad, boolByte u, d.code] = .ok (.addressingSetup pad sad u d) := by
  rw [decodeAddressingSetup, decodeBool_eq_some.mpr rfl, decodeDirection_eq_some.mpr rfl]

theorem decodeGroupTrigger_targetBytes (ts : List Target) : decodeGroupTrigger (targetBytes ts) =
    if ts.length ≤ Config.getListMax then .ok (.sendGroupTrigger ts) else .error .operandOutOfType := by
  rw [decodeGroupTrigger, decodeTargets_targetBytes]

theorem decodeBusDrive_bytes (d : BusDrive) :
    decodeBusDrive (lineByte d.atn :: lineByte d.dav :: lineByte d.eoi :: lineByte d.nrfd :: lineByte d.ndac ::
      lineByte d.ifc :: lineByte d.srq :: lineByte d.ren :: dioBytes d.dio) = .ok (.busDrive d) := by
  have hline (x : Option Bool) : decodeLine (lineByte x) = some x := decodeLine_eq_some.mpr rfl
  simp only [decodeBusDrive, hline, decodeDio_eq_some.mpr rfl]

/-- The bytes of a well-formed request or event decode to it (R100, R101). -/
theorem decodeMessage_encode {i : Instr} (hwf : i.wf = true) (hport : i.port = .request) :
    decodeMessage (encode i) = .ok i := by
  have bool (x : Bool) : decodeBool (boolByte x) = some x := decodeBool_eq_some.mpr rfl
  cases i with
  | receiveByte | sendIfc | popRecord | deviceCycle | listenOnlyCycle | mainCycle | tick | reset => rfl
  | sendCommand b | setStatus b => rfl
  | sendByte v e => exact typed_map_eq_ok.mpr ⟨e, bool e, rfl⟩
  | sendData buffer e => exact typed_map_eq_ok.mpr ⟨e, bool e, rfl⟩
  | receiveMessage m c => exact typed_map_eq_ok.mpr ⟨m, decodeRecvMode_eq_some.mpr rfl, rfl⟩
  | addressingSetup pad sad u d => exact decodeAddressingSetup_bytes pad sad u d
  | readStatusByte pad sad u => exact typed_map_eq_ok.mpr ⟨u, bool u, rfl⟩
  | sendGroupTrigger ts => exact (decodeGroupTrigger_targetBytes ts).trans (if_pos (of_decide_eq_true hwf))
  | setRole r => exact typed_map_eq_ok.mpr ⟨r, decodeRole_eq_some.mpr rfl, rfl⟩
  | setListenOnly on => exact typed_map_eq_ok.mpr ⟨on, bool on, rfl⟩
  | setSrq on => exact typed_map_eq_ok.mpr ⟨on, bool on, rfl⟩
  | setConfig w => exact typed_map_eq_ok.mpr ⟨w, decodeConfigWrite_eq_some.mpr rfl, rfl⟩
  | rxBurst bs =>
    cases bs with
    | nil => cases hwf
    | cons b bs => rfl
  | busDrive d => exact decodeBusDrive_bytes d
  | _ => cases hport

/-! ### Command bytes (R91, R93, R221) -/

/-- A fact about bytes below a small bound is a fact about each of them. -/
theorem byte_below {P : Byte → Prop} {n : Nat} (h : ∀ k : Fin n, P (BitVec.ofNat 8 k)) {c : Byte} (hc : c.toNat < n) :
    P c := by
  have hk := h ⟨c.toNat, hc⟩
  rwa [BitVec.ofNat_toNat, BitVec.setWidth_eq] at hk

theorem toNat_lt_of_addressField {a : Byte} (ha : addressField a = true) : a.toNat < 31 :=
  Nat.lt_succ_of_le (of_decide_eq_true ha)

theorem decodeCommand_mla {a : Byte} (ha : addressField a = true) : decodeCommand true (Cmd.mla a).byte = .mla a :=
  byte_below (P := fun a => decodeCommand true (Cmd.mla a).byte = .mla a) (by decide) (toNat_lt_of_addressField ha)

theorem decodeCommand_mta {a : Byte} (ha : addressField a = true) : decodeCommand true (Cmd.mta a).byte = .mta a :=
  byte_below (P := fun a => decodeCommand true (Cmd.mta a).byte = .mta a) (by decide) (toNat_lt_of_addressField ha)

theorem decodeCommand_msa {a : Byte} (ha : addressField a = true) : decodeCommand true (Cmd.msa a).byte = .msa a :=
  byte_below (P := fun a => decodeCommand true (Cmd.msa a).byte = .msa a) (by decide) (toNat_lt_of_addressField ha)

theorem getLsbD_seven (c : Byte) : c.getLsbD 7 = decide (0x80 ≤ c.toNat) := c.msb_eq_decide

/-- A byte with bit 7 set has no name for a decoder that does not mask it (R221); the unnamed codes of group 00 and 0x7F
have none for one that does (R93). -/
theorem decodeCommand_other {c : Byte} (hc : unnamedCommand c = true) : decodeCommand (!c.getLsbD 7) c = .other c := by
  rw [getLsbD_seven]
  by_cases h7 : 0x80 ≤ c.toNat
  · rw [decide_eq_true h7, decodeCommand, getLsbD_seven, decide_eq_true h7]; rfl
  · rw [decide_eq_false h7]
    simp only [unnamedCommand, decide_eq_false h7, Bool.false_or, Bool.or_eq_true, Bool.and_eq_true,
      decide_eq_true_iff, beq_iff_eq] at hc
    obtain ⟨hlow, hname⟩ | rfl := hc
    · exact byte_below (P := fun c => (!namedGroup0 c) = true → decodeCommand true c = .other c) (by decide) hlow hname
    · rfl

/-! ### Link bytes (R95) -/

/-- A literal stays a literal in the plainest context. -/
theorem classify_lit {c : Byte} (hc : literalChar c = true) : classify .normal false .start c = .lit c := by
  simp only [literalChar, Bool.not_eq_true', Bool.or_eq_false_iff, beq_eq_false_iff_ne] at hc
  obtain ⟨⟨⟨hesc, hplus⟩, hcr⟩, hlf⟩ := hc
  rw [classify, if_neg nofun, if_neg nofun, if_neg hesc, if_neg hplus, if_neg hcr, if_neg hlf]

/-! ### What is refused (R103) -/

/-- A code above every code of an enumeration is none of its codes. -/
theorem decode_eq_none {α : Type} {dec : Byte → Option α} {code : α → Byte}
    (hdec : ∀ {b x}, dec b = some x ↔ b = code x) {n : Nat} (hmax : ∀ x, (code x).toNat ≤ n) {b : Byte}
    (hb : n < b.toNat) : dec b = none := by
  rw [Option.eq_none_iff_forall_ne_some]
  intro x hx
  rw [hdec.mp hx] at hb
  exact absurd (hmax x) (Nat.not_le_of_lt hb)

theorem decodeRecvMode_eq_none {m : Byte} (h : 2 < m.toNat) : decodeRecvMode m = none :=
  decode_eq_none decodeRecvMode_eq_some (fun x => by cases x <;> decide) h

theorem decodeDirection_eq_none {d : Byte} (h : 1 < d.toNat) : decodeDirection d = none :=
  decode_eq_none decodeDirection_eq_some (fun x => by cases x <;> decide) h

theorem decodeRole_eq_none {r : Byte} (h : 1 < r.toNat) : decodeRole r = none :=
  decode_eq_none decodeRole_eq_some (fun x => by cases x <;> decide) h

/-- A code in no row of R100 and R101 is refused under its own name, whatever follows it. -/
theorem decodeMessage_undefinedCode {code : Byte} (hreq : ¬ (0x01 ≤ code.toNat ∧ code.toNat ≤ 0x12))
    (hev : ¬ (0x80 ≤ code.toNat ∧ code.toNat ≤ 0x83)) (ops : List Byte) :
    decodeMessage (code :: ops) = .error (.undefinedCode code) := by
  dsimp only [decodeMessage]
  split
  case h_23 => rfl
  all_goals omega

end Sys2Proof

namespace Sys2Proof.Machine

/-- A step that meets a refused message is refused. -/
theorem step_undefinedMessage {s : State} {bs : List Byte} {q : List Item} {e : DecodeError}
    (hq : s.inbox = .message bs :: q) (hd : decodeMessage bs = .error e) :
    step s = .refused (.undefinedMessage e) := by
  rw [step, hq]
  simp only [decode, hd]

end Sys2Proof.Machine

section
open Sys2Proof Sys2Proof.Machine

/-- Settles O1: a message by the equivalences of its operands, a command byte by its group, a link byte by its class. -/
theorem decodeEncodeRoundTrip : Obligations.DecodeEncodeRoundTrip := by
  intro i hwf
  have ofCommand (m : Bool) {c : Cmd} (h : decodeCommand m c.byte = c) :
      decode (.command m) [c.byte] = .ok c.toInstr :=
    congrArg (fun c => Except.ok (Cmd.toInstr c)) h
  cases i with
  | gtl | sdc | get | llo | dcl | spe | spd | unl | unt => rfl
  | mla a => exact ofCommand true (decodeCommand_mla hwf)
  | mta a => exact ofCommand true (decodeCommand_mta hwf)
  | msa a => exact ofCommand true (decodeCommand_msa hwf)
  | other c => exact ofCommand _ (c := .other c) (decodeCommand_other hwf)
  | esc | plus | leadingPlusPair | cr | lf => rfl
  | escaped c | discard c => rfl
  | lit c => exact congrArg (fun k => Except.ok (LinkClass.toInstr k)) (classify_lit hwf)
  | _ => exact decodeMessage_encode hwf rfl

/-- Settles O2: what each message decoder accepts is the encoding of what it gives. -/
theorem acceptedMessagesAreEncodings : Obligations.AcceptedMessagesAreEncodings := by
  intro bs i h
  cases bs with
  | nil => cases h
  | cons code ops =>
    obtain ⟨hwf, hbytes, hport⟩ := decodeMessage_encodedAs h
    exact ⟨hwf, hbytes, hport⟩

/-- Settles O3: the code is in no row of the tables, or the operand's own decoder refuses it. -/
theorem undefinedMessagesRefused : Obligations.UndefinedMessagesRefused := by
  refine ⟨fun code ops hreq hev => decodeMessage_undefinedCode hreq hev ops, fun m c hm => ?_, fun pad sad u d hd => ?_,
    fun r hr => ?_, fun ts hts => ?_, decodeAddressingSetup_bytes, fun s bs q e hq hd => step_undefinedMessage hq hd⟩
  · change decodeReceiveMessage [m, c] = _
    rw [decodeReceiveMessage, decodeRecvMode_eq_none hm]; rfl
  · change decodeAddressingSetup [pad, sad, boolByte u, d] = _
    rw [decodeAddressingSetup, decodeBool_eq_some.mpr rfl, decodeDirection_eq_none hd]
  · change decodeSetRole [r] = _
    rw [decodeSetRole, decodeRole_eq_none hr]; rfl
  · change decodeGroupTrigger (targetBytes ts) = _
    rw [decodeGroupTrigger_targetBytes, if_neg (Nat.not_le_of_lt hts)]

/-- Settles O5: closed words, evaluated on their interfaces, and the code tables. -/
theorem knownWordsDecode : Obligations.KnownWordsDecode :=
  ⟨rfl, rfl, rfl, rfl, rfl, rfl, rfl, rfl, rfl, rfl, rfl, fun _ _ => ⟨rfl, rfl, rfl⟩, rfl, rfl, rfl, rfl, rfl, rfl, rfl,
    rfl⟩

end
end

section
/-!
PROOFS. Drive consistency (R88).  A line that only moves the sequencer (`MovesOnly`) keeps every drive.  The lines that
drive something each keep `drivesOk` (`KeepsDrives`), because the direction their operation has set lets them.  What the
frames of the callers have set stays set, because an operation that turns the transceiver around is not called by one
that relies on it.  `SET_ROLE` stands alone on the stack and has its own lemma.
-/

namespace Sys2Proof.Machine

/-! ### Lines that only move the sequencer -/

/-- The lines of the operation before this one have driven nothing, and have set neither the direction nor the role. -/
def Frame.quiet : Frame → Bool
  | .boot _ => false
  | .sendByte _ _ l => decide (l = .s1)
  | .receiveByte l => decide (l = .r1)
  | .sendCommand _ l => decide (l = .c1)
  | .sendIfc l => decide (l = .i1)
  | .listenOnlyCycle l => !(decide (l = .l1Talker) || decide (l = .l1Acceptor))
  | .setRole _ _ => false
  | .setListenOnly _ _ => false
  | _ => true

/-- From `s` to `t` the block drives nothing and writes no handshake or configuration register; the operation called by
`rest` has returned, or goes on with quiet frames above `rest`. -/
structure MovesOnly (rest : List Frame) (s t : State) : Prop where
  hs : t.hs = s.hs := by rfl
  drv : t.drv = s.drv := by rfl
  cfg : t.cfg = s.cfg := by rfl
  pc : ∃ new, t.pc = new ++ rest ∧ ∀ g ∈ new, g.quiet = true := by exact ⟨[], rfl, List.forall_mem_nil _⟩

namespace MovesOnly

variable {rest fs : List Frame} {s t u : State} {f : Frame}

theorem push (h : MovesOnly rest s (u.goto fs)) (hf : f.quiet = true := by rfl) :
    MovesOnly rest s (u.goto (f :: fs)) where
  hs := h.hs
  drv := h.drv
  cfg := h.cfg
  pc := by
    obtain ⟨new, hnew, hq⟩ := h.pc
    exact ⟨f :: new, congrArg (f :: ·) hnew, List.forall_mem_cons.mpr ⟨hf, hq⟩⟩

theorem finish (h : MovesOnly rest s (u.goto rest)) (r : Ret) : MovesOnly rest s (u.finish r rest) where
  hs := (u.finish_hs r rest).trans h.hs
  drv := (u.finish_drv r rest).trans h.drv
  cfg := (u.finish_cfg r rest).trans h.cfg
  pc := ⟨[], u.finish_pc r rest, List.forall_mem_nil _⟩

theorem ite {c : Prop} [Decidable c] (ht : MovesOnly rest s t) (hu : MovesOnly rest s u) :
    MovesOnly rest s (if c then t else u) := by
  split
  · exact ht
  · exact hu

end MovesOnly

section
variable (rest : List Frame) (s : State)

theorem sendDataLoop_movesOnly (todo : List Byte) (e : Bool) : MovesOnly rest s (sendDataLoop todo e rest s) := by
  cases todo with
  | nil => exact .finish {} _
  | cons b bs => exact .push (.push {})

theorem sendDataLine_movesOnly (todo : List Byte) (e : Bool) : MovesOnly rest s (sendDataLine todo e rest s) := by
  unfold sendDataLine
  split
  · exact .finish {} _
  · exact sendDataLoop_movesOnly rest s todo e

theorem receiveMessageLine_movesOnly (m : RecvMode) (c : Byte) (l : ReceiveMessageLine) :
    MovesOnly rest s (receiveMessageLine m c l rest s) := by
  cases l with
  | m1 => rw [receiveMessageLine]; split <;> exact .push {}
  | m2 b eoi =>
    rw [receiveMessageLine, forwardByte]
    split
    · exact .push {}
    · exact .push (.push {})
  | m3 reason => exact .ite (.finish {} _) (.finish {} _)

theorem addressingLoop_movesOnly (todo : List Byte) : MovesOnly rest s (addressingLoop todo rest s) := by
  cases todo with
  | nil => exact .finish {} _
  | cons b bs => exact .push (.push {})

theorem enterAddressingSetup_movesOnly (pad sad : Byte) (u : Bool) (d : Direction) :
    MovesOnly rest s (enterAddressingSetup pad sad u d rest s) := by
  unfold enterAddressingSetup
  split
  · exact .finish {} _
  · exact addressingLoop_movesOnly rest s _

theorem addressingSetupLine_movesOnly (todo : List Byte) : MovesOnly rest s (addressingSetupLine todo rest s) := by
  unfold addressingSetupLine
  split
  · exact .finish {} _
  · exact addressingLoop_movesOnly rest s todo

theorem readStatusLoop_movesOnly (pad sad : Byte) (u : Bool) (todo : List Byte) :
    MovesOnly rest s (readStatusLoop pad sad u todo rest s) := by
  cases todo <;> exact .push (.push {})

theorem enterReadStatusByte_movesOnly (pad sad : Byte) (u : Bool) :
    MovesOnly rest s (enterReadStatusByte pad sad u rest s) := by
  unfold enterReadStatusByte
  split
  · exact .finish {} _
  · exact readStatusLoop_movesOnly rest s _ _ _ _

theorem readStatusByteLine_movesOnly (pad sad : Byte) (u : Bool) (l : ReadStatusLine) :
    MovesOnly rest s (readStatusByteLine pad sad u l rest s) := by
  unfold readStatusByteLine
  split
  · exact .finish {} _
  · cases l with
    | p3 todo => exact readStatusLoop_movesOnly rest s _ _ _ _
    | p4 =>
      dsimp only
      split
      · exact .push (.push {})
      · exact .finish {} _
    | p5 sb => exact .push (.push {})
    | p6 sb => exact .finish {} _

theorem groupTriggerLoop_movesOnly (todo : List Target) (first : Option ErrKind) :
    MovesOnly rest s (groupTriggerLoop todo first rest s) := by
  obtain ⟨f, h⟩ | ⟨x, ts, f, b, bs, -, -, -, h⟩ := groupTriggerLoop_cases todo first rest s
  · rw [h]; exact .finish {} _
  · rw [h]; exact .push (.push (.push {}))

theorem groupTriggerLine_movesOnly (todo : List Target) (first : Option ErrKind) (l : GroupTriggerLine) :
    MovesOnly rest s (groupTriggerLine todo first l rest s) := by
  unfold groupTriggerLine
  split
  · exact groupTriggerLoop_movesOnly rest s _ _
  · cases l with
    | addressing => exact .push (.push {})
    | trigger => exact groupTriggerLoop_movesOnly rest s _ _

theorem enterGroupTrigger_movesOnly (list : List Target) : MovesOnly rest s (enterGroupTrigger list rest s) :=
  .ite (groupTriggerLoop_movesOnly rest s list none) (.finish {} _)

/-- A command byte changes the device state and may call the rest of `dev_clear()` (R241, R245). -/
theorem applyReceived_movesOnly (hs : MovesOnly rest s s) : MovesOnly rest s (applyReceived s) := by
  obtain h | ⟨c, h⟩ := applyReceived_cases s
  · rw [h]; exact hs
  · obtain ⟨new, hnew, hq⟩ := hs.pc
    rw [h]
    refine ⟨applyCmd_hs c s, applyCmd_drv c s, applyCmd_cfg c s, ?_⟩
    obtain hp | hp := applyCmd_pc c s
    · exact ⟨new, hp.trans hnew, hq⟩
    · exact ⟨.devClear .e2 :: new, by rw [hp, hnew]; rfl, List.forall_mem_cons.mpr ⟨rfl, hq⟩⟩

/-- The device cycle leaves every drive to the operations it calls, but for the release of SRQ after a poll (R249). -/
theorem deviceCycleLine_movesOnly {l : DeviceCycleLine} (hl : l ≠ .v3Srq) :
    MovesOnly rest s (deviceCycleLine l rest s) := by
  cases l with
  | v1 => exact .ite (.finish {} _) (.ite (.push (.push {})) (.push {}))
  | v2 => exact .ite (.push (.push {})) (.push {})
  | v2Ret =>
    have h := applyReceived_movesOnly rest (s.goto (.deviceCycle .v5 :: rest)) (.push {})
    exact ⟨h.hs, h.drv, h.cfg, h.pc⟩
  | v3 => exact .ite (.push (.push {})) (.push {})
  | v3Ret => exact .push {}
  | v3Srq => exact absurd rfl hl
  | v4 => exact .ite (.push (.push (.push {}))) (.finish {} _)
  | v3Disarm | v4Ret | v5 => exact .finish {} _

/-- Listen-only mode drives something at its line `l1` alone (R270). -/
theorem listenOnlyLine_movesOnly {l : ListenOnlyLine} (h1 : l ≠ .l1) (ht : l ≠ .l1Talker) (ha : l ≠ .l1Acceptor) :
    MovesOnly rest s (listenOnlyLine l rest s) := by
  cases l with
  | l1 => exact absurd rfl h1
  | l1Talker => exact absurd rfl ht
  | l1Acceptor => exact absurd rfl ha
  | l2 => exact .ite (.push (.push {})) (.push {})
  | l2Ret =>
    have hlog : MovesOnly rest s ((logReceived s).goto rest) :=
      { hs := logReceived_hs s, drv := logReceived_drv s, cfg := logReceived_cfg s }
    exact hlog.finish _
  | l3 => exact .ite (.push (.push (.push {}))) (.finish {} _)
  | l3Ret => exact .finish {} _

theorem deviceRecordLoop_movesOnly (todo : List Byte) : MovesOnly rest s (deviceRecordLoop todo rest s) := by
  cases todo with
  | nil => exact .push {}
  | cons b bs => exact .push (.push {})

theorem enterSendData_movesOnly (buffer : List Byte) (e : Bool) : MovesOnly rest s (enterSendData buffer e rest s) :=
  sendDataLoop_movesOnly rest s _ e

/-- What an operation that `f` calls may do, `f` may do by calling it. -/
theorem MovesOnly.called {rest : List Frame} {s t : State} {f : Frame} (h : MovesOnly (f :: rest) s t)
    (hf : f.quiet = true := by rfl) : MovesOnly rest s t where
  hs := h.hs
  drv := h.drv
  cfg := h.cfg
  pc := by
    obtain ⟨new, hnew, hq⟩ := h.pc
    refine ⟨new ++ [f], by rw [hnew, List.append_assoc]; rfl, ?_⟩
    exact List.forall_mem_append.mpr ⟨hq, List.forall_mem_singleton.mpr hf⟩

theorem routeRecord_movesOnly (popped : Option Record) : MovesOnly rest s (routeRecord popped rest s) := by
  cases popped with
  | none => exact .push {}
  | some x =>
    exact .ite (.push {})
      (.ite (enterSendData_movesOnly _ s _ _).called (.ite (deviceRecordLoop_movesOnly rest s _) (.push {})))

theorem mainCycleLine_movesOnly (l : MainCycleLine) : MovesOnly rest s (mainCycleLine l rest s) := by
  cases l with
  | k1 | k2Ret => exact .push {}
  | k2 popped => exact routeRecord_movesOnly rest s popped
  | k2Byte todo =>
    rw [mainCycleLine, deviceRecordLine]
    split
    · exact .push {}
    · exact deviceRecordLoop_movesOnly rest s todo
  | k3 => exact .ite (.ite (.push (.push {})) (.push (.push {}))) (.finish {} _)
  | k3Ret => exact .finish {} _

end

/-! ### The lines of a direction and of a role (R88) -/

/-- What the transceiver direction does not let the block drive is released. -/
structure State.linesDirected (s : State) : Prop where
  listen : s.hs.xcvr = .listen → s.drv.dav = false ∧ s.drv.eoi = false ∧ s.drv.dio = 0x00#8
  talk : s.hs.xcvr = .talk → s.drv.nrfd = false ∧ s.drv.ndac = false

/-- What the role does not let the block drive is released. -/
structure State.linesOfRole (s : State) : Prop where
  device : s.cfg.role = .device → s.drv.atn = false ∧ s.drv.ifc = false ∧ s.drv.ren = false
  controller : s.cfg.role = .controller → s.drv.srq = false

/-- `State.drivesConsistent` outside the lines of a `SET_ROLE`. -/
structure State.drivesOk (s : State) : Prop extends s.linesDirected, s.linesOfRole

namespace State.drivesOk

variable {s : State} (h : s.drivesOk)
include h

theorem talkConfig : s.talkConfig.drivesOk := { h with listen := nofun, talk := fun _ => ⟨rfl, rfl⟩ }

theorem listenConfig : s.listenConfig.drivesOk := { h with listen := fun _ => ⟨rfl, rfl, rfl⟩, talk := nofun }

theorem releaseTalker : s.releaseTalker.drivesOk := { h with listen := fun _ => ⟨rfl, rfl, rfl⟩ }

/-- In talk configuration the talker lines are free. -/
theorem driveTalker (hx : s.hs.xcvr = .talk) (dav eoi : Bool) (dio : Byte) :
    State.drivesOk { s with drv.dav := dav, drv.eoi := eoi, drv.dio := dio } :=
  { h with listen := fun hl => absurd (hx.symm.trans hl) nofun }

/-- In listen configuration the acceptor lines are free. -/
theorem driveAcceptor (hx : s.hs.xcvr = .listen) (nrfd ndac : Bool) :
    State.drivesOk { s with drv.nrfd := nrfd, drv.ndac := ndac } :=
  { h with talk := fun ht => absurd (hx.symm.trans ht) nofun }

theorem driveAtn (v : Bool) (hv : s.cfg.role = .device → v = false) : State.drivesOk { s with drv.atn := v } :=
  { h with device := fun hd => ⟨hv hd, (h.device hd).2⟩ }

theorem driveIfc (v : Bool) (hv : s.cfg.role = .device → v = false) : State.drivesOk { s with drv.ifc := v } :=
  { h with device := fun hd => ⟨(h.device hd).1, hv hd, (h.device hd).2.2⟩ }

theorem driveSrq (v : Bool) (hv : s.cfg.role = .controller → v = false) : State.drivesOk { s with drv.srq := v } :=
  { h with controller := hv }

end State.drivesOk

/-! ### What the frames on the stack rely on -/

/-- What the lines of `f` before this one have set is set. -/
structure State.meets (s : State) (f : Frame) : Prop where
  direction : f.directionOk s.hs.xcvr = true := by rfl
  boot : f.bootOk s.drv = true := by rfl
  role : f.roleOk s.cfg.role s.drv = true := by rfl

section
variable {s : State}

theorem State.meets_sendByte {v : Byte} {e : Bool} {l : SendByteLine} :
    s.meets (.sendByte v e l) ↔ l = .s1 ∨ s.hs.xcvr = .talk := by
  have h : Frame.directionOk s.hs.xcvr (.sendByte v e l) = true ↔ l = .s1 ∨ s.hs.xcvr = .talk := by
    simp [Frame.directionOk]
  exact ⟨fun m => h.mp m.direction, fun m => { direction := h.mpr m }⟩

theorem State.meets_receiveByte {l : ReceiveByteLine} : s.meets (.receiveByte l) ↔ l = .r1 ∨ s.hs.xcvr = .listen := by
  have h : Frame.directionOk s.hs.xcvr (.receiveByte l) = true ↔ l = .r1 ∨ s.hs.xcvr = .listen := by
    simp [Frame.directionOk]
  exact ⟨fun m => h.mp m.direction, fun m => { direction := h.mpr m }⟩

theorem State.meets_listenOnlyCycle {l : ListenOnlyLine} :
    s.meets (.listenOnlyCycle l) ↔ (l = .l1Talker ∨ l = .l1Acceptor → s.hs.xcvr = .listen) := by
  have h : Frame.directionOk s.hs.xcvr (.listenOnlyCycle l) = true ↔
      (l = .l1Talker ∨ l = .l1Acceptor → s.hs.xcvr = .listen) := by
    simp only [Frame.directionOk, Bool.or_eq_true, Bool.not_eq_true', ← Bool.not_eq_true, decide_eq_true_iff]
    exact Decidable.imp_iff_not_or.symm
  exact ⟨fun m => h.mp m.direction, fun m => { direction := h.mpr m }⟩

theorem State.meets_setListenOnly {on : Bool} {l : SetListenOnlyLine} :
    s.meets (.setListenOnly on l) ↔ (l = .n4 → s.hs.xcvr = .listen) := by
  have h : Frame.directionOk s.hs.xcvr (.setListenOnly on l) = true ↔ (l = .n4 → s.hs.xcvr = .listen) := by
    simp only [Frame.directionOk, Bool.or_eq_true, decide_eq_true_iff]
    exact Decidable.imp_iff_not_or.symm
  exact ⟨fun m => h.mp m.direction, fun m => { direction := h.mpr m }⟩

/-- A quiet frame relies on nothing. -/
theorem State.meets_of_quiet {f : Frame} (hf : f.quiet = true) : s.meets f := by
  cases f with
  | boot l | setRole new l | setListenOnly on l => cases hf
  | sendByte v e l => exact State.meets_sendByte.mpr (.inl (of_decide_eq_true hf))
  | receiveByte l => exact State.meets_receiveByte.mpr (.inl (of_decide_eq_true hf))
  | listenOnlyCycle l =>
    refine State.meets_listenOnlyCycle.mpr fun hl => ?_
    obtain rfl | rfl := hl <;> cases hf
  | _ => exact {}

/-- A caller relies on the direction at most: boot and `SET_ROLE` call nothing. -/
theorem State.meets_of_calls {g : Frame} {o : Op} (hc : g.calls o = true) (hd : g.directionOk s.hs.xcvr = true) :
    s.meets g := by
  cases g with
  | boot l | setRole new l => cases hc
  | _ => exact { direction := hd }

/-- A caller other than the byte engine does not rely on the direction either. -/
theorem directionOk_of_calls {g : Frame} {o : Op} (hc : g.calls o = true) (hr : 1 < g.rank) (x : Xcvr) :
    g.directionOk x = true := by
  cases g with
  | sendByte v e l | receiveByte l => exact absurd hr (Nat.lt_irrefl 1)
  | listenOnlyCycle l => cases l with
    | l1Talker | l1Acceptor => cases hc
    | _ => rfl
  | setListenOnly on l => cases hc
  | _ => rfl

end

/-- Every frame under the innermost one is at a line that calls. -/
theorem nested_calls {f : Frame} {rest : List Frame} (h : nested (f :: rest) = true) :
    ∀ g ∈ rest, ∃ o, g.calls o = true := by
  induction rest generalizing f with
  | nil => exact List.forall_mem_nil _
  | cons g gs ih =>
    rw [nested, Bool.and_eq_true] at h
    exact List.forall_mem_cons.mpr ⟨⟨f.op, h.1⟩, ih h.2⟩

/-- An operation of the highest rank has no caller. -/
theorem nested_alone {f : Frame} {rest : List Frame} (h : nested (f :: rest) = true) (hf : f.rank = 9) : rest = [] := by
  cases rest with
  | nil => rfl
  | cons g gs =>
    have hg : f.rank < g.rank := nested_rank h g List.mem_cons_self
    have hmax : g.rank ≤ 9 := by unfold Frame.rank; split <;> decide
    omega

/-- Outside the byte engine the sequencer position asks for released talker lines (R157). -/
theorem talkerLines_of_rank {pc : List Frame} (h : ∀ g ∈ pc, 1 < g.rank) :
    talkerLines pc = (false, false, 0x00#8) := by
  induction pc with
  | nil => rfl
  | cons f fs ih =>
    obtain ⟨hf, hfs⟩ := List.forall_mem_cons.mp h
    cases f with
    | sendByte v e l => exact absurd hf (Nat.lt_irrefl 1)
    | _ => exact ih hfs

/-- DAV, EOI and the data lines are released. -/
def State.talkerReleased (s : State) : Prop := s.drv.dav = false ∧ s.drv.eoi = false ∧ s.drv.dio = 0x00#8

theorem State.talkerOk.released {s : State} (h : s.talkerOk) (hr : ∀ g ∈ s.pc, 1 < g.rank) : s.talkerReleased := by
  rw [State.talkerOk, talkerLines_of_rank hr] at h
  obtain ⟨hdav, heoi, hdio⟩ := Prod.mk.inj h |>.imp_right Prod.mk.inj
  exact ⟨hdav, heoi, hdio⟩

/-! ### Lines that drive something -/

/-- What a line of an operation called by `rest` leaves: consistent drives, and frames of its own that rely on nothing
but what is set. -/
structure KeepsDrives (rest : List Frame) (t : State) : Prop where
  ok : t.drivesOk
  frames : ∀ g ∈ t.pc, g ∈ rest ∨ t.meets g

namespace KeepsDrives

variable {rest fs : List Frame} {s t u : State} {f : Frame}

theorem goto (h : s.drivesOk) : KeepsDrives rest (s.goto rest) := ⟨{ h with }, fun _ hg => .inl hg⟩

theorem finish (h : s.drivesOk) (r : Ret) : KeepsDrives rest (s.finish r rest) where
  ok := by
    obtain ⟨⟨hl, ht⟩, hd, hc⟩ := h
    exact ⟨⟨by simpa using hl, by simpa using ht⟩, by simpa using hd, by simpa using hc⟩
  frames := fun _ hg => .inl (by rwa [State.finish_pc] at hg)

theorem push (h : KeepsDrives rest (s.goto fs)) (hf : s.meets f := by exact {}) :
    KeepsDrives rest (s.goto (f :: fs)) where
  ok := { h.ok with }
  frames := List.forall_mem_cons.mpr ⟨.inr { hf with }, fun g hg => (h.frames g hg).imp_right fun m => { m with }⟩

theorem ite {c : Prop} [Decidable c] (ht : c → KeepsDrives rest t) (hu : ¬ c → KeepsDrives rest u) :
    KeepsDrives rest (if c then t else u) := by
  split
  · exact ht ‹_›
  · exact hu ‹_›

theorem of_movesOnly (h : s.drivesOk) (m : MovesOnly rest s t) : KeepsDrives rest t := by
  obtain ⟨hhs, hdrv, hcfg, new, hpc, hq⟩ := m
  obtain ⟨⟨hl, ht⟩, hd, hc⟩ := h
  rw [← hhs, ← hdrv] at hl ht
  rw [← hcfg, ← hdrv] at hd hc
  refine ⟨⟨⟨hl, ht⟩, hd, hc⟩, fun g hg => ?_⟩
  rw [hpc, List.mem_append] at hg
  exact hg.symm.imp_right fun hg => State.meets_of_quiet (hq g hg)

end KeepsDrives

section
variable {s : State} (h : s.drivesOk) (rest : List Frame)
include h

theorem waitLine_keepsDrives (c : WaitCond) (l : WaitLine) : KeepsDrives rest (waitLine c l rest s) := by
  have htick (on : Bool) : State.drivesOk { s with hs.tickEn := on } := { h with }
  cases l with
  | w1 => exact .push (.goto { h with })
  | w2 => exact .push (.goto (htick true))
  | w3 | w4 => exact .ite (fun _ => .finish (htick false) _) fun _ => .push (.goto h)

/-- From line `s2` on `SEND_BYTE` is in talk configuration. -/
theorem sendByteLine_keepsDrives {v : Byte} {e : Bool} {l : SendByteLine} (hf : s.meets (.sendByte v e l)) :
    KeepsDrives rest (sendByteLine v e l rest s) := by
  by_cases hl : l = .s1
  · subst hl; exact .push (.goto h.talkConfig) (State.meets_sendByte.mpr (.inr rfl))
  · have hx : s.hs.xcvr = .talk := (State.meets_sendByte.mp hf).resolve_left hl
    have next (l' : SendByteLine) : s.meets (.sendByte v e l') := State.meets_sendByte.mpr (.inr hx)
    cases l with
    | s1 => exact absurd rfl hl
    | s2 => exact .ite (fun _ => .finish h _) fun _ => .push (.goto h) (next .s3)
    | s3 => exact .push (.push (.goto (h.driveTalker hx s.drv.dav s.drv.eoi v)) { next .s4 with })
    | s4 =>
      exact .ite (fun _ => .finish (h.driveTalker hx s.drv.dav s.drv.eoi 0x00#8) _) fun _ => .push (.goto h) (next .s5)
    | s5 => exact .push (.goto (h.driveTalker hx s.drv.dav _ s.drv.dio)) { next .s6 with }
    | s6 => exact .push (.push (.goto (h.driveTalker hx true s.drv.eoi s.drv.dio)) { next .s7 with })
    | s7 => exact .ite (fun _ => .finish h.releaseTalker _) fun _ => .push (.goto h) (next .s8)
    | s8 => exact .push (.goto (h.driveTalker hx false s.drv.eoi s.drv.dio)) { next .s9 with }
    | s9 => exact .finish (h.driveTalker hx s.drv.dav false 0x00#8) _

/-- From line `r2` on `RECEIVE_BYTE` is in listen configuration. -/
theorem receiveByteLine_keepsDrives {l : ReceiveByteLine} (hf : s.meets (.receiveByte l)) :
    KeepsDrives rest (receiveByteLine l rest s) := by
  by_cases hl : l = .r1
  · subst hl; exact .push (.goto h.listenConfig) (State.meets_receiveByte.mpr (.inr rfl))
  · have hx : s.hs.xcvr = .listen := (State.meets_receiveByte.mp hf).resolve_left hl
    have next (l' : ReceiveByteLine) : s.meets (.receiveByte l') := State.meets_receiveByte.mpr (.inr hx)
    cases l with
    | r1 => exact absurd rfl hl
    | r2 => exact .push (.goto (h.driveAcceptor hx s.drv.nrfd true)) { next .r3 with }
    | r3 => exact .push (.push (.goto (h.driveAcceptor hx false s.drv.ndac)) { next .r4 with })
    | r4 => exact .ite (fun _ => .finish (h.driveAcceptor hx true s.drv.ndac) _) fun _ => .push (.goto h) (next .r5)
    | r5 => exact .push (.goto { h with }) { next .r6 with }
    | r6 => exact .push (.goto (h.driveAcceptor hx true s.drv.ndac)) { next .r7 with }
    | r7 => exact .push (.push (.goto (h.driveAcceptor hx s.drv.nrfd false)) { next .r8 with })
    | r8 => exact .ite (fun _ => .finish (h.driveAcceptor hx s.drv.nrfd true) _) fun _ => .push (.goto h) (next .r9)
    | r9 => exact .push (.goto (h.driveAcceptor hx s.drv.nrfd true)) { next .r10 with }
    | r10 => exact .finish (h.driveAcceptor hx false s.drv.ndac) _

/-- ATN is asserted after the check of the role only (R180). -/
theorem sendCommandLine_keepsDrives (b : Byte) (l : SendCommandLine) :
    KeepsDrives rest (sendCommandLine b l rest s) := by
  cases l with
  | c1 =>
    refine .ite (fun hc => ?_) fun _ => .finish h _
    exact .push (.push (.goto (h.driveAtn true fun hd => absurd (hd.symm.trans (of_decide_eq_true hc)) nofun)))
  | c3 => exact .push (.goto h)
  | c4 => exact .finish (h.driveAtn false fun _ => rfl) _

/-- IFC is asserted after the check of the role only (R208). -/
theorem sendIfcLine_keepsDrives (l : SendIfcLine) : KeepsDrives rest (sendIfcLine l rest s) := by
  cases l with
  | i1 =>
    refine .ite (fun hc => ?_) fun _ => .finish h _
    exact .push (.goto (h.driveIfc true fun hd => absurd (hd.symm.trans (of_decide_eq_true hc)) nofun))
  | i3 => exact .push (.goto h)
  | i4 => exact .finish (h.driveIfc false fun _ => rfl) _

theorem devClearLine_keepsDrives (l : DevClearLine) : KeepsDrives rest (devClearLine l rest s) := by
  cases l with
  | e1 | e2 => exact .push (.goto { h with })
  | e3 => exact .goto (h.driveSrq false fun _ => rfl)

theorem deviceCycleLine_keepsDrives (l : DeviceCycleLine) : KeepsDrives rest (deviceCycleLine l rest s) := by
  by_cases hl : l = .v3Srq
  · subst hl; exact .push (.goto (h.driveSrq false fun _ => rfl))
  · exact .of_movesOnly h (deviceCycleLine_movesOnly rest s hl)

/-- Line `l1` turns the transceiver to listen, where the talker lines are released already; it holds the acceptor lines
from there on (R270). -/
theorem listenOnlyLine_keepsDrives {l : ListenOnlyLine} (hf : s.meets (.listenOnlyCycle l)) (hq : s.talkerReleased) :
    KeepsDrives rest (listenOnlyLine l rest s) := by
  have hx := State.meets_listenOnlyCycle.mp hf
  cases l with
  | l1 =>
    have hlisten : State.drivesOk { s with hs.xcvr := .listen } := { h with listen := fun _ => hq, talk := nofun }
    exact .ite (fun _ => .finish h _) fun _ => .push (.goto hlisten) (State.meets_listenOnlyCycle.mpr fun _ => rfl)
  | l1Talker =>
    exact .push (.goto h.releaseTalker) (State.meets_listenOnlyCycle.mpr fun _ => hx (.inl rfl))
  | l1Acceptor => exact .push (.goto (h.driveAcceptor (hx (.inr rfl)) false true))
  | l2 | l2Ret | l3 | l3Ret => exact .of_movesOnly h (listenOnlyLine_movesOnly rest s nofun nofun nofun)

theorem setListenOnlyLine_keepsDrives {on : Bool} {l : SetListenOnlyLine} (hf : s.meets (.setListenOnly on l)) :
    KeepsDrives rest (setListenOnlyLine on l rest s) := by
  have meets {u : State} {l' : SetListenOnlyLine} (hl : l' ≠ .n4) : u.meets (.setListenOnly on l') :=
    State.meets_setListenOnly.mpr fun h4 => absurd h4 hl
  cases l with
  | n2 =>
    have hn : (if s.isDevice then SetListenOnlyLine.n3 else .n5) ≠ .n4 := by split <;> nofun
    have hsrq : State.drivesOk { s with dev := Device.cleared, drv.srq := false } :=
      { h.driveSrq false fun _ => rfl with }
    exact .push (.goto hsrq) (meets hn)
  | n3 => exact .push (.goto h.listenConfig) (State.meets_setListenOnly.mpr fun _ => rfl)
  | n4 => exact .push (.goto (h.driveAcceptor (State.meets_setListenOnly.mp hf rfl) false true)) (meets nofun)
  | n5 =>
    have hemit : (s.emitPersist .listenOnly).drivesOk := { h with }
    exact .finish hemit _

end

/-- Released lines are consistent with every direction and role. -/
theorem State.drivesOk_of_released {s : State} (h : s.drv = Drives.released) : s.drivesOk := by
  refine ⟨⟨fun _ => ?_, fun _ => ?_⟩, fun _ => ?_, fun _ => ?_⟩ <;> simp [h, Drives.released]

/-- The idle drives of a role are consistent with it and with their direction (R343). -/
theorem State.drivesOk_idleDrives {s : State} {r : Role} (hr : s.cfg.role = r) : (s.idleDrives r).drivesOk := by
  cases r with
  | controller => exact ⟨⟨nofun, fun _ => ⟨rfl, rfl⟩⟩, fun hd => absurd (hr.symm.trans hd) nofun, fun _ => rfl⟩
  | device =>
    exact ⟨⟨fun _ => ⟨rfl, rfl, rfl⟩, nofun⟩, fun _ => ⟨rfl, rfl, rfl⟩, fun hc => absurd (hr.symm.trans hc) nofun⟩

/-- Boot drives no line before its line `b2`, which sets the idle drives of the role of `b1` (R342). -/
theorem bootLine_keepsDrives {s t : State} (h : s.drivesOk) {l : BootLine} (hf : s.meets (.boot l))
    (hrun : bootLine l s = .next t) : KeepsDrives [] t := by
  cases l with
  | b1 =>
    have hreleased : s.drv = Drives.released := of_decide_eq_true hf.boot
    rw [bootLine] at hrun
    split_ifs at hrun
    cases hrun
    exact .push (.goto (State.drivesOk_of_released hreleased)) { boot := hf.boot }
  | b2 => cases hrun; exact .push (.goto (State.drivesOk_idleDrives rfl))
  | b4 => cases hrun; exact .push (.goto { h with })
  | b5 => cases hrun; exact .goto h

/-! ### The invariant of a step -/

/-- `State.directionsOk` with `State.drivesConsistent`, frame by frame. -/
structure State.drivesInv (s : State) : Prop extends s.linesDirected where
  frames : ∀ g ∈ s.pc, s.meets g
  ofRole : changingRole s.pc = false → s.linesOfRole

theorem State.drivesInv_iff {s : State} : s.drivesInv ↔ s.directionsOk ∧ s.drivesConsistent := by
  unfold State.directionsOk State.drivesConsistent
  rw [List.all_eq_true, List.all_eq_true, List.all_eq_true]
  constructor
  · rintro ⟨⟨hlisten, htalk⟩, hframes, hrole⟩
    exact ⟨⟨fun g hg => (hframes g hg).direction, fun g hg => (hframes g hg).boot, fun g hg => (hframes g hg).role⟩,
      hlisten, htalk, fun hc => ⟨(hrole hc).device, (hrole hc).controller⟩⟩
  · rintro ⟨⟨hdir, hboot, hset⟩, hlisten, htalk, hrole⟩
    exact ⟨⟨hlisten, htalk⟩, fun g hg => ⟨hdir g hg, hboot g hg, hset g hg⟩, fun hc => ⟨(hrole hc).1, (hrole hc).2⟩⟩

theorem State.drivesInv.drivesOk {s : State} (h : s.drivesInv) (hc : changingRole s.pc = false) : s.drivesOk :=
  ⟨h.tolinesDirected, h.ofRole hc⟩

theorem KeepsDrives.drivesInv {rest : List Frame} {t : State} (h : KeepsDrives rest t) (hrest : ∀ g ∈ rest, t.meets g) :
    t.drivesInv :=
  ⟨h.ok.tolinesDirected, fun g hg => (h.frames g hg).elim (hrest g) id, fun _ => h.ok.tolinesOfRole⟩

/-- The lines of a `SET_ROLE` owe the role nothing yet (R255). -/
theorem State.drivesInv_setRole {s : State} {new : Role} {l : SetRoleLine} (hd : s.linesDirected)
    (hdone : l.done new s.cfg.role s.drv = true) : (s.goto [.setRole new l]).drivesInv where
  listen := hd.listen
  talk := hd.talk
  frames := List.forall_mem_singleton.mpr { role := hdone }
  ofRole := nofun

/-- What a `SET_ROLE` has written by its last line is consistent with the new role. -/
theorem SetRoleLine.linesOfRole_of_done {s : State} {new : Role} (h : SetRoleLine.t6.done new s.cfg.role s.drv = true) :
    s.linesOfRole := by
  simp only [SetRoleLine.done, Bool.and_eq_true, decide_eq_true_iff, Bool.not_eq_true', beq_iff_eq] at h
  obtain ⟨⟨⟨⟨hrole, hatn⟩, hifc⟩, hsrq⟩, hren⟩ := h
  refine ⟨fun hd => ⟨hatn, hifc, ?_⟩, fun _ => hsrq⟩
  rw [hren, ← hrole, hd]; rfl

/-- Each line of `SET_ROLE` adds what it writes to what the lines before it have written (R255). -/
theorem setRoleLine_drivesInv {s : State} {new : Role} {l : SetRoleLine} (hd : s.linesDirected)
    (hf : s.meets (.setRole new l)) (hq : s.talkerReleased) : (setRoleLine new l [] s).drivesInv := by
  have hdone : l.done new s.cfg.role s.drv = true := hf.role
  cases l with
  | t2 => exact State.drivesInv_setRole { hd with } hdone
  | t3 =>
    refine State.drivesInv_setRole { hd with } ?_
    simpa [SetRoleLine.done] using hdone
  | t4 => exact State.drivesInv_setRole ⟨fun _ => ⟨rfl, rfl, rfl⟩, hd.talk⟩ hdone
  | t5 =>
    cases new with
    | controller =>
      exact State.drivesInv_setRole ⟨nofun, fun _ => ⟨rfl, rfl⟩⟩ ((Bool.and_eq_true _ _).mpr ⟨hdone, rfl⟩)
    | device => exact State.drivesInv_setRole ⟨fun _ => hq, nofun⟩ ((Bool.and_eq_true _ _).mpr ⟨hdone, rfl⟩)
  | t6 =>
    have hok : (s.emitPersist .role).drivesOk := ⟨{ hd with }, { SetRoleLine.linesOfRole_of_done hdone with }⟩
    exact (KeepsDrives.finish hok _).drivesInv (List.forall_mem_nil _)

/-- An operation other than `SET_ROLE` runs with the drives consistent and leaves them so. -/
theorem runLine_keepsDrives {f : Frame} {rest : List Frame} {s t : State} (hn : nested (f :: rest) = true)
    (h : s.drivesOk) (hf : s.meets f) (hq : 1 < f.rank → s.talkerReleased) (hset : changingRole (f :: rest) = false)
    (hrun : runLine f rest s = .next t) : KeepsDrives rest t := by
  cases f with
  | boot l => rw [nested_alone hn rfl]; exact bootLine_keepsDrives h hf hrun
  | setRole new l => cases hset
  | wait c l => cases hrun; exact waitLine_keepsDrives h rest c l
  | sendByte v e l => cases hrun; exact sendByteLine_keepsDrives h rest hf
  | receiveByte l => cases hrun; exact receiveByteLine_keepsDrives h rest hf
  | sendCommand b l => cases hrun; exact sendCommandLine_keepsDrives h rest b l
  | sendData todo e => cases hrun; exact .of_movesOnly h (sendDataLine_movesOnly rest s todo e)
  | receiveMessage m c l => cases hrun; exact .of_movesOnly h (receiveMessageLine_movesOnly rest s m c l)
  | addressingSetup todo => cases hrun; exact .of_movesOnly h (addressingSetupLine_movesOnly rest s todo)
  | readStatusByte p a u l => cases hrun; exact .of_movesOnly h (readStatusByteLine_movesOnly rest s p a u l)
  | sendIfc l => cases hrun; exact sendIfcLine_keepsDrives h rest l
  | groupTrigger todo first l => cases hrun; exact .of_movesOnly h (groupTriggerLine_movesOnly rest s todo first l)
  | devClear l => cases hrun; exact devClearLine_keepsDrives h rest l
  | deviceCycle l => cases hrun; exact deviceCycleLine_keepsDrives h rest l
  | listenOnlyCycle l => cases hrun; exact listenOnlyLine_keepsDrives h rest hf (hq (by simp [Frame.rank]))
  | mainCycle l => cases hrun; exact .of_movesOnly h (mainCycleLine_movesOnly rest s l)
  | setListenOnly on l => cases hrun; exact setListenOnlyLine_keepsDrives h rest hf

/-- A `WAIT` does not touch the transceiver. -/
theorem waitLine_xcvr (c : WaitCond) (l : WaitLine) (rest : List Frame) (s : State) :
    (waitLine c l rest s).hs.xcvr = s.hs.xcvr := by
  cases l <;> rw [waitLine] <;> (try split) <;> simp

/-- What the callers rely on stays set at every line: a `WAIT` leaves the direction alone, and under any other operation
no frame relies on it. -/
theorem runLine_meets_callers {f : Frame} {rest : List Frame} {s t : State} (hn : nested (f :: rest) = true)
    (hs : ∀ g ∈ rest, s.meets g) (hrun : runLine f rest s = .next t) : ∀ g ∈ rest, t.meets g := by
  intro g hg
  obtain ⟨o, ho⟩ := nested_calls hn g hg
  refine State.meets_of_calls ho ?_
  by_cases hr : f.rank = 0
  · cases f with
    | wait c l => cases hrun; rw [waitLine_xcvr]; exact (hs g hg).direction
    | _ => cases hr
  · have hlt := nested_rank hn g hg
    exact directionOk_of_calls ho (by omega) t.hs.xcvr

theorem runLine_drivesInv {f : Frame} {rest : List Frame} {s t : State} (hpc : s.pc = f :: rest)
    (hn : nested s.pc = true) (htalk : s.talkerOk) (hs : s.drivesInv) (hrun : runLine f rest s = .next t) :
    t.drivesInv := by
  have hframes := hs.frames
  have hreleased (hr : 1 < f.rank) : s.talkerReleased := by
    refine htalk.released ?_
    rw [hpc] at hn ⊢
    exact List.forall_mem_cons.mpr ⟨hr, fun g hg => hr.trans (nested_rank hn g hg)⟩
  have hok := hs.drivesOk
  rw [hpc] at hn hframes hok
  obtain ⟨hf, hrest⟩ := List.forall_mem_cons.mp hframes
  cases hset : changingRole (f :: rest) with
  | false =>
    exact (runLine_keepsDrives hn (hok hset) hf hreleased hset hrun).drivesInv (runLine_meets_callers hn hrest hrun)
  | true =>
    cases f with
    | setRole new l =>
      obtain rfl := nested_alone hn rfl
      cases hrun
      exact setRoleLine_drivesInv hs.tolinesDirected hf (hreleased (by simp [Frame.rank]))
    | _ => cases hset

/-- The first line of a request, on an idle block. -/
theorem request_drivesInv {i : Instr} (hk : i.kind = .request) {s t : State} (hpc : s.pc = []) (htalk : s.talkerOk)
    (hs : s.drivesInv) (hexec : exec i s = .next t) : t.drivesInv := by
  have h : s.drivesOk := hs.drivesOk (by rw [hpc]; rfl)
  have hq : s.talkerReleased := htalk.released (by rw [hpc]; exact List.forall_mem_nil _)
  have taken {u : State} (ha : s.accept u = .next t) (hu : KeepsDrives [] u) : t.drivesInv := by
    obtain ⟨-, rfl⟩ := State.accept_next ha
    exact hu.drivesInv (List.forall_mem_nil _)
  cases i with
  | sendByte v e => exact taken hexec (sendByteLine_keepsDrives h [] (State.meets_of_quiet rfl))
  | receiveByte => exact taken hexec (receiveByteLine_keepsDrives h [] (State.meets_of_quiet rfl))
  | sendCommand b => exact taken hexec (sendCommandLine_keepsDrives h [] b .c1)
  | sendData buffer e => exact taken hexec (.of_movesOnly h (enterSendData_movesOnly [] s buffer e))
  | receiveMessage m c => exact taken hexec (.push (.push (.goto h)))
  | addressingSetup p a u d => exact taken hexec (.of_movesOnly h (enterAddressingSetup_movesOnly [] s p a u d))
  | readStatusByte p a u => exact taken hexec (.of_movesOnly h (enterReadStatusByte_movesOnly [] s p a u))
  | sendIfc => exact taken hexec (sendIfcLine_keepsDrives h [] .i1)
  | sendGroupTrigger list => exact taken hexec (.of_movesOnly h (enterGroupTrigger_movesOnly [] s list))
  | popRecord | setStatus v => exact taken hexec (.of_movesOnly h (.finish {} _))
  | deviceCycle => exact taken hexec (deviceCycleLine_keepsDrives h [] .v1)
  | listenOnlyCycle => exact taken hexec (listenOnlyLine_keepsDrives h [] (State.meets_of_quiet rfl) hq)
  | mainCycle => exact taken hexec (.of_movesOnly h (mainCycleLine_movesOnly [] s .k1))
  | setRole r =>
    obtain ⟨-, rfl⟩ := State.accept_next hexec
    exact State.drivesInv_setRole { hs with } (decide_eq_true rfl)
  | setListenOnly on => exact taken hexec (.push (.goto { h with }) (State.meets_setListenOnly.mpr nofun))
  | setSrq on =>
    refine taken hexec (.ite (fun hd => ?_) fun _ => .finish h _)
    exact .finish (h.driveSrq on fun hc => absurd (hc.symm.trans (of_decide_eq_true hd)) nofun) _
  | setConfig w =>
    obtain ⟨hrole, -⟩ := s.cfg.write_role_listenOnly w
    have hwrite : State.drivesOk ({ s with cfg := s.cfg.write w }.emitPersist (configField w)) :=
      { h with device := fun hd => h.device (hrole.symm.trans hd)
               controller := fun hc => h.controller (hrole.symm.trans hc) }
    exact taken hexec (.ite (fun _ => .finish hwrite _) fun _ => .finish h _)
  | _ => cases hk

/-- An event drives nothing of the block's, but for `RESET`, which releases every line (R340). -/
theorem event_drivesInv {i : Instr} (hk : i.kind = .event) {s t : State} (hs : s.drivesInv)
    (hexec : exec i s = .next t) : t.drivesInv := by
  have hparts := State.drivesInv_iff.mp hs
  cases i with
  | rxBurst bs => rw [exec_rxBurst_next hexec]; exact State.drivesInv_iff.mpr hparts
  | tick =>
    cases hexec
    unfold onTick
    split <;> exact State.drivesInv_iff.mpr hparts
  | busDrive d => cases hexec; exact State.drivesInv_iff.mpr hparts
  | reset =>
    cases hexec
    have hreset : KeepsDrives [] (resetState s) :=
      ⟨State.drivesOk_of_released rfl, List.forall_mem_singleton.mpr (.inr {})⟩
    exact hreset.drivesInv (List.forall_mem_nil _)
  | _ => cases hk

end Sys2Proof.Machine

section
open Sys2Proof Sys2Proof.Machine

/-- Settles O54: a line, a request or an event keeps the invariant frame by frame, on the state with the schedule
advanced. -/
theorem drivesStayConsistent : Obligations.DrivesStayConsistent := by
  intro s t hn htalk hdir hcons hstep
  rw [← State.drivesInv_iff]
  have hs : s.drivesInv := State.drivesInv_iff.mpr ⟨hdir, hcons⟩
  obtain ⟨q, p, rfl, hmove⟩ := step_moves hstep
  have hp : State.drivesInv { s with inbox := q } := State.drivesInv_iff.mpr ⟨hdir, hcons⟩
  obtain ⟨f, rest, hpc, hrun⟩ | ⟨hpc, hrun⟩ | ⟨i, hk, hpc, hexec⟩ | ⟨i, hk, -, hexec⟩ := hmove
  · exact runLine_drivesInv hpc hn htalk hp hrun
  · exact request_drivesInv (i := .mainCycle) rfl hpc htalk hp hrun
  · exact request_drivesInv hk hpc htalk hp hexec
  · exact event_drivesInv hk hp hexec

end

end

section
/-!
PROOFS. The framed receiver (40_framed_receiver.md).  `store` is what rule R125 writes out, and each link class runs its
transition.  A byte publishes at most the record in progress: only `finalize` and a forced flush move `head`, and a leading
pair never flushes, because a held `+` holds no byte (R30 (e)).
-/

namespace Sys2Proof.Machine

/-! ### The class of a byte and the end of a burst (R95, R121, R130) -/

/-- Only a held `+` makes a leading pair (R124). -/
theorem Receiver.lead_of_classOf_leadingPlusPair {r : Receiver} {c : Byte} (h : r.classOf c = .leadingPlusPair) :
    r.lead = .onePlus := by
  unfold Receiver.classOf classify at h
  split_ifs at h
  assumption

theorem isTerminator_iff {c : Byte} : isTerminator c = true ↔ c = Config.chCr ∨ c = Config.chLf := by
  simp [isTerminator]

/-- In both modes the byte that drains the rest of its burst is an unescaped CR or LF (R130). -/
theorem Receiver.terminates_classOf_iff {r : Receiver} {c : Byte} :
    r.terminates (r.classOf c) = true ↔ r.esc = false ∧ (c = Config.chCr ∨ c = Config.chLf) := by
  unfold Receiver.classOf classify
  split_ifs with hd hesc hchar hplus hlead hcr hlf
  · rw [Receiver.terminates, Bool.and_eq_true, Bool.not_eq_true', isTerminator_iff]
  · simp [Receiver.terminates, hesc]
  · subst hchar; exact iff_of_false nofun fun h => absurd h.2 (by decide)
  · subst hplus; exact iff_of_false nofun fun h => absurd h.2 (by decide)
  · subst hplus; exact iff_of_false nofun fun h => absurd h.2 (by decide)
  · exact iff_of_true rfl ⟨Bool.eq_false_iff.mpr hesc, .inl hcr⟩
  · exact iff_of_true rfl ⟨Bool.eq_false_iff.mpr hesc, .inr hlf⟩
  · exact iff_of_false nofun fun h => h.2.elim hcr hlf

theorem Receiver.burst_cons (r : Receiver) (c : Byte) (cs : List Byte) : r.burst (c :: cs) =
    if r.esc = false ∧ (c = Config.chCr ∨ c = Config.chLf) then r.rxByte c else (r.rxByte c).burst cs :=
  if_congr Receiver.terminates_classOf_iff rfl rfl

/-! ### The three answers to a `+` (R123, R124) -/

theorem Receiver.onPlus_of_start {r : Receiver} (h : r.lead = .start) : r.onPlus = { r with lead := .onePlus } := by
  rw [Receiver.onPlus, h]

theorem Receiver.onPlus_of_onePlus {r : Receiver} (h : r.lead = .onePlus) : r.onPlus = r.leadingPair := by
  rw [Receiver.onPlus, h]

theorem Receiver.onPlus_of_body {r : Receiver} (h : r.lead = .body) : r.onPlus = r := by
  rw [Receiver.onPlus, h]

/-! ### Storing a byte (R125, R128) -/

theorem Receiver.collides_iff {r : Receiver} : r.collides = true ↔ r.used + 2 + r.len.toNat + 1 > 255 :=
  decide_eq_true_iff

/-- `store(c)` leaves what rule R125 writes out. -/
theorem Receiver.stores_store (r : Receiver) (c : Byte) : r.stores c (r.store c) := by
  have checked (f : Receiver) :
      (f.used + 2 + f.len.toNat + 1 > 255 → f.storeChecked c = f.dropRecord) ∧
        (f.used + 2 + f.len.toNat + 1 ≤ 255 → f.storeChecked c = f.append c) :=
    ⟨fun h => if_pos (Receiver.collides_iff.mpr h),
      fun h => if_neg (Bool.eq_false_iff.mp (Receiver.collides_false.mpr h))⟩
  rw [Receiver.stores, Receiver.store]
  split
  · exact checked r.flushed
  · exact checked r

theorem Receiver.store_of_ne_253 {r : Receiver} (h : r.len.toNat ≠ 253) (c : Byte) : r.store c = r.storeChecked c :=
  if_neg h

theorem Receiver.store_eq_append {r : Receiver} (hl : r.len.toNat < 253) (hc : r.collides = false) (c : Byte) :
    r.store c = r.append c := by
  rw [Receiver.store_of_ne_253 (by omega), Receiver.storeChecked, if_neg (Bool.eq_false_iff.mp hc)]

/-- A stored byte ends the payload in progress (R125). -/
theorem Receiver.inProgress_payload_append {r : Receiver} (hw : Memory.wf r.ring = true) (hl : r.len.toNat < 253)
    (c : Byte) : (r.append c).inProgress.payload = r.inProgress.payload ++ [c] := by
  have hlen : (r.len + 1#8).toNat = r.len.toNat + 1 := by bv_omega
  have hlast : (r.append c).memRead (r.head + 2#8 + BitVec.ofNat 8 r.len.toNat) = c := by
    rw [BitVec.ofNat_toNat, BitVec.setWidth_eq]
    exact Receiver.memRead_memWrite_same hw _ c
  have hfront : (r.append c).payloadAt r.head r.len.toNat = r.payloadAt r.head r.len.toNat := by
    refine List.map_congr_left fun i hi => r.memRead_memWrite_other ?_ c
    have hi := List.mem_range.mp hi
    bv_omega
  change (r.append c).payloadAt r.head (r.len + 1#8).toNat = r.payloadAt r.head r.len.toNat ++ [c]
  rw [hlen, ← hfront, Receiver.payloadAt, List.range_succ, List.map_append, List.map_singleton, hlast]
  rfl

/-! ### What each transition publishes (R127, R128) -/

/-- The flags, the mode and the record in progress do not matter to the unread records. -/
theorem Receiver.records_of_eq {r r' : Receiver} {xs : List Record} (h : r.records = some xs)
    (hring : r'.ring = r.ring := by rfl) (hrd : r'.rd = r.rd := by rfl)
    (hhead : r'.head = r.head := by rfl) :
    r'.records = some xs :=
  (Receiver.records_congr hring hrd hhead).trans h

/-- The collision check publishes nothing, and what it stores goes to a free byte (R69, R125). -/
theorem Receiver.records_storeChecked {r : Receiver} {xs : List Record} (h : r.records = some xs) (c : Byte) :
    (r.storeChecked c).records = some xs := by
  unfold Receiver.storeChecked
  split
  · exact Receiver.records_of_eq h
  · next hc =>
    have hc := Receiver.collides_false.mp (Bool.eq_false_iff.mpr hc)
    have ha : r.used ≤ (r.head + 2#8 + r.len - r.rd).toNat := by
      rw [Receiver.used] at hc ⊢
      bv_omega
    exact Receiver.records_of_eq (Receiver.records_memWrite h ha c)

theorem Receiver.len_storeChecked_le (r : Receiver) (c : Byte) : (r.storeChecked c).len.toNat ≤ r.len.toNat + 1 := by
  unfold Receiver.storeChecked
  split
  · exact Nat.zero_le _
  · change (r.len + 1#8).toNat ≤ r.len.toNat + 1
    bv_omega

/-- `store` publishes the record in progress when it flushes it, and nothing otherwise (R125, R128). -/
theorem Receiver.records_store {r : Receiver} {xs : List Record} (hw : Memory.wf r.ring = true) (h : r.records = some xs)
    (hroom : r.roomy) (hm : r.mode = .normal) (c : Byte) :
    (r.store c).records = some xs ∨ (r.store c).records = some (xs ++ [r.inProgress]) := by
  by_cases h253 : r.len.toNat = 253
  · right
    have hp := Receiver.records_publish hw h (hroom hm (by omega))
    rw [Receiver.store, if_pos h253, Receiver.forceFlush_eq h253]
    exact Receiver.records_storeChecked (Receiver.records_of_eq hp) c
  · left
    rw [Receiver.store_of_ne_253 h253]
    exact Receiver.records_storeChecked h c

/-- A leading pair starts on an empty record, so neither store flushes (R124, R128). -/
theorem Receiver.records_leadingPair {r : Receiver} {xs : List Record} (h : r.records = some xs) (hl : r.len = 0#8) :
    r.leadingPair.records = some xs := by
  have noFlush (x : Receiver) (hx : x.records = some xs) (hxl : x.len.toNat ≤ 1) :
      (x.store Config.chPlus).records = some xs ∧ (x.store Config.chPlus).len.toNat ≤ x.len.toNat + 1 := by
    rw [Receiver.store_of_ne_253 (by omega)]
    exact ⟨Receiver.records_storeChecked hx _, x.len_storeChecked_le _⟩
  have hz : r.len.toNat = 0 := by rw [hl]; rfl
  obtain ⟨hfirst, hle⟩ := noFlush { r with lead := .body } (Receiver.records_of_eq h) (Nat.le_trans hz.le (by decide))
  obtain ⟨hsecond, -⟩ := noFlush _ hfirst (hle.trans (Nat.add_le_add_right hz.le 1))
  unfold Receiver.leadingPair
  dsimp only
  split_ifs
  · exact Receiver.records_of_eq hsecond
  · exact hsecond
  · exact hfirst

theorem Receiver.records_finalize_of_fits {r : Receiver} {xs : List Record} (hw : Memory.wf r.ring = true)
    (h : r.records = some xs) (hf : r.fits = true) : r.finalize.records = some (xs ++ [r.inProgress]) := by
  rw [Receiver.finalize, if_pos hf]
  exact Receiver.records_of_eq (Receiver.records_publish hw h (Receiver.fits_iff.mp hf))

/-- A terminator publishes the record in progress when it fits, and nothing otherwise (R127). -/
theorem Receiver.records_finalize {r : Receiver} {xs : List Record} (hw : Memory.wf r.ring = true)
    (h : r.records = some xs) :
    r.finalize.records = some xs ∨ r.finalize.records = some (xs ++ [r.inProgress]) := by
  by_cases hf : r.fits = true
  · exact .inr (Receiver.records_finalize_of_fits hw h hf)
  · left
    rw [Receiver.finalize, if_neg hf]
    exact Receiver.records_of_eq h

/-- `Discard` mode publishes nothing (R129). -/
theorem Receiver.records_onDiscard {r : Receiver} {xs : List Record} (h : r.records = some xs) (c : Byte) :
    (r.onDiscard c).records = some xs := by
  unfold Receiver.onDiscard
  split_ifs <;> exact Receiver.records_of_eq h

/-- One byte publishes at most the record in progress (R121, R134). -/
theorem Receiver.records_rxByte {r : Receiver} {xs : List Record} (hw : Memory.wf r.ring = true) (hok : r.ok)
    (h : r.records = some xs) (c : Byte) :
    (r.rxByte c).records = some xs ∨ (r.rxByte c).records = some (xs ++ [r.inProgress]) := by
  obtain ⟨-, hroom, -, hlead⟩ := hok
  have empty (hl : r.lead = .onePlus) : r.len = 0#8 := (hlead (by rw [hl]; nofun)).1
  have normal {k : LinkClass} (hk : r.classOf c = k) (hd : k ≠ .discard c) : r.mode = .normal :=
    (r.normal_or_classOf_discard c).resolve_right fun h => hd (hk.symm.trans h)
  rw [Receiver.rxByte]
  cases hk : r.classOf c with
  | esc => exact .inl (Receiver.records_of_eq h)
  | plus =>
    left
    rw [Receiver.take, Receiver.onPlus]
    split
    · exact Receiver.records_of_eq h
    · next hl => exact Receiver.records_leadingPair h (empty hl)
    · exact h
  | leadingPlusPair => exact .inl (Receiver.records_leadingPair h (empty (Receiver.lead_of_classOf_leadingPlusPair hk)))
  | cr | lf => exact Receiver.records_finalize hw h
  | lit d =>
    exact Receiver.records_store (r := { r with lead := .body }) hw (Receiver.records_of_eq h) hroom
      (normal hk nofun) d
  | escaped d =>
    exact Receiver.records_store (r := { r with esc := false }) hw (Receiver.records_of_eq h) hroom
      (normal hk nofun) d
  | discard d => exact .inl (Receiver.records_onDiscard h d)

/-- A byte that is stored without a flush extends the payload in progress by itself (R125, R126, R131). -/
theorem Receiver.inProgress_payload_rxByte {r : Receiver} {c : Byte} (hw : Memory.wf r.ring = true)
    (hk : r.classOf c = .lit c ∨ r.classOf c = .escaped c) (hl : r.len.toNat < 253) (hc : r.collides = false) :
    (r.rxByte c).inProgress.payload = r.inProgress.payload ++ [c] := by
  have stored (x : Receiver) (hx : x.ring = r.ring) (hxl : x.len = r.len) (hxc : x.collides = r.collides) :
      (x.store c).inProgress.payload = x.inProgress.payload ++ [c] := by
    rw [← hxl] at hl
    rw [Receiver.store_eq_append hl (hxc.trans hc)]
    exact Receiver.inProgress_payload_append (by rw [hx]; exact hw) hl c
  obtain hk | hk := hk
  · rw [Receiver.rxByte, hk]; exact stored { r with lead := .body } rfl rfl rfl
  · rw [Receiver.rxByte, hk]; exact stored { r with esc := false } rfl rfl rfl

/-! ### Popping (R132) -/

/-- Two header bytes, the payload and zeros make the 256 bytes of the image (R132). -/
theorem Record.image_eq {x : Record} (h : x.payload.length ≤ 254) :
    x.image = x.flag :: x.len :: (x.payload ++ List.replicate (254 - x.payload.length) 0x00#8) := by
  rw [Record.image, List.take_succ_cons, List.take_succ_cons, List.take_append, List.take_of_length_le h,
    List.take_replicate, Nat.min_eq_left (Nat.le_trans (Nat.sub_le _ _) (by decide))]

theorem exec_popRecord {s : State} (hpc : s.pc = []) :
    exec .popRecord s = .next ({ s with rx := s.rx.popped }.returned (popResult s.rx.oldest)) :=
  State.accept_idle _ hpc

theorem Receiver.oldest_of_ne {r : Receiver} (h : r.rd ≠ r.head) : r.oldest = some (r.recordAt r.rd) :=
  if_neg fun he => h (of_decide_eq_true he)

theorem Receiver.oldest_of_eq {r : Receiver} (h : r.rd = r.head) : r.oldest = none := if_pos (decide_eq_true h)

end Sys2Proof.Machine

section
open Sys2Proof Sys2Proof.Machine

/-- Settles O14: a byte publishes at most the record in progress, class by class; a pop takes the first record laid out. -/
theorem recordsFirstInFirstOut : Obligations.RecordsFirstInFirstOut := by
  intro r xs hw hok hx
  refine ⟨fun c hk hf => ?_, fun c => ?_, fun c hk hl hc => Receiver.inProgress_payload_rxByte hw hk hl hc,
    fun hnil => ?_, fun x ys hcons => ?_⟩
  · have hfin : r.rxByte c = r.finalize := by
      obtain hk | hk := hk
      · exact congrArg r.take hk
      · exact congrArg r.take hk
    rw [hfin]
    exact Receiver.records_finalize_of_fits hw hx hf
  · obtain h | h := Receiver.records_rxByte hw hok hx c
    · exact ⟨[], by rw [List.append_nil, h], r.take_rd _, .inl rfl⟩
    · exact ⟨[r.inProgress], h, r.take_rd _, .inr rfl⟩
  · obtain ⟨-, -, hold, hpop⟩ | ⟨x, ys, hxs, -⟩ := Receiver.records_cases hx
    · exact ⟨hold, hpop⟩
    · cases hnil.symm.trans hxs
  · obtain ⟨hxs, -⟩ | ⟨x', ys', hxs, hold, -, hrecs, -⟩ := Receiver.records_cases hx
    · cases hcons.symm.trans hxs
    · cases hcons.symm.trans hxs
      exact ⟨hold, hrecs⟩

/-- Settles O8: the class of a byte names its instruction, and a byte drains the burst exactly when it is an unescaped
CR or LF. -/
theorem burstInOrderUpToTerminator : Obligations.BurstInOrderUpToTerminator := by
  refine ⟨fun s c => ⟨(s.rx.classOf c).toInstr, exec_linkClass _ s, ?_⟩, fun bs s h => exec_rxBurst h,
    fun bs s h => if_neg (Nat.not_le_of_lt h), fun r => rfl, Receiver.burst_cons⟩
  simp only [Receiver.classOf, classify, apply_ite LinkClass.toInstr]
  rfl

/-- Settles O9: each rule is its definition, with R125 for the two stores of a pair. -/
theorem escapeAndPlusRules : Obligations.EscapeAndPlusRules := by
  have plus {s : State} {r : Receiver} (h : s.rx.onPlus = r) : exec .plus s = .next { s with rx := r } := by
    rw [← h]; rfl
  refine ⟨fun s => ⟨_, _, Receiver.stores_store _ _, fun hm => ?_, fun hm => ?_, rfl⟩, fun s => ⟨rfl,
    fun hl => plus (Receiver.onPlus_of_start hl), fun hl => plus (Receiver.onPlus_of_body hl),
    fun hl => plus (Receiver.onPlus_of_onePlus hl)⟩⟩
  · rw [if_pos hm]; exact Receiver.stores_store _ _
  · exact if_neg (by rw [hm]; nofun)

/-- Settles O10: both classes run `store`, which is what R125 writes out. -/
theorem literalAndEscapedStored : Obligations.LiteralAndEscapedStored :=
  fun _ c => ⟨⟨_, rfl, Receiver.stores_store _ c⟩, ⟨_, rfl, Receiver.stores_store _ c⟩⟩

/-- Settles O11: CR and LF run `finalize`, whose two ends are those of R127. -/
theorem terminatorFinalizes : Obligations.TerminatorFinalizes := by
  intro s r fresh t
  have ht : { s with rx := s.rx.finalize } = t := by
    by_cases hf : r.used + 2 + r.len.toNat ≤ 255
    · rw [Receiver.finalize, if_pos (Receiver.fits_iff.mpr hf)]; exact (if_pos hf).symm
    · rw [Receiver.finalize, if_neg (mt Receiver.fits_iff.mp hf)]; exact (if_neg hf).symm
  rw [← ht]
  exact ⟨rfl, rfl⟩

/-- Settles O12: the four ends of R129, branch by branch. -/
theorem discardDropsLine : Obligations.DiscardDropsLine := by
  intro s c
  change Host.Outcome.next { s with rx := s.rx.onDiscard c } = _
  simp only [Receiver.onDiscard, isTerminator_iff]
  split_ifs <;> rfl

/-- Settles O13: the oldest record is the one at `rd`, and its image is its bytes with zeros after them. -/
theorem popRecordRule : Obligations.PopRecordRule := by
  intro s hpc
  refine ⟨fun he => ?_, fun n hne hn hle => ?_⟩
  · rw [exec_popRecord hpc, Receiver.popped, Receiver.oldest_of_eq he]
    rfl
  · subst hn
    have hlen : (s.rx.recordAt s.rx.rd).payload.length = (s.rx.memRead (s.rx.rd + 1#8)).toNat := by
      simp [Receiver.recordAt, Receiver.payloadAt]
    have himage := Record.image_eq (x := s.rx.recordAt s.rx.rd) (by omega)
    rw [hlen] at himage
    rw [exec_popRecord hpc, Receiver.popped, Receiver.oldest_of_ne hne, popResult, himage]
    rfl

end
end

section
/-!
PROOFS. Runs under a schedule.  `Reaches` is a run of some length; each kind of move of the schedule (a `pass`, ticks, a
`BUS_DRIVE`, nothing at all) has one rule, and the polls of `WAIT` (R150) follow from them for every operation that
waits.
-/

namespace Sys2Proof.Machine

/-! ### Runs of some length -/

/-- A run leads from `s` to `t`, and the block puts the bytes `tr` on the bus in it. -/
def Reaches (s t : State) (tr : List Talked) : Prop := ∃ k, Executes k s t tr

theorem Reaches.refl (s : State) : Reaches s s [] := ⟨0, executes_zero s⟩

theorem Reaches.trans {s t u : State} {a b : List Talked} (h : Reaches s t a) (h' : Reaches t u b) :
    Reaches s u (a ++ b) := by
  obtain ⟨j, hj⟩ := h
  obtain ⟨k, hk⟩ := h'
  exact ⟨j + k, executes_add hj hk⟩

theorem Reaches.congr {s t u : State} {tr : List Talked} (h : Reaches s t tr) (ht : t = u) : Reaches s u tr := ht ▸ h

/-- The first step of a run from `s`, when it leaves DAV as it was, can be left out. -/
theorem Executes.tail {k : Nat} {s t u : State} {tr : List Talked} (h : Executes (k + 1) s u tr)
    (hstep : step s = .next t) (hdav : t.drv.dav = s.drv.dav) : Executes k t u tr := by
  obtain ⟨hruns, htrace⟩ := h
  obtain ⟨t', ht', hruns⟩ := runs_succ_iff.mp hruns
  cases hstep.symm.trans ht'
  refine ⟨hruns, ?_⟩
  rw [← htrace, busTrace, hstep]
  simp [hdav]

/-- A step that does not assert DAV puts no byte on the bus. -/
theorem reaches_step {s t : State} (h : step s = .next t) (hdav : t.drv.dav = true → s.drv.dav = true) :
    Reaches s t [] := by
  have hrise : ¬ (t.drv.dav && !s.drv.dav) = true := by
    rw [Bool.and_eq_true, Bool.not_eq_true']
    exact fun ⟨ht, hs⟩ => Bool.false_ne_true (hs.symm.trans (hdav ht))
  exact ⟨1, runs_succ h (runs_zero t), by rw [busTrace, h]; simp only [if_neg hrise]; rfl⟩

/-- The step at which DAV rises puts a byte on the bus. -/
theorem reaches_rise {s t : State} (h : step s = .next t) (hs : s.drv.dav = false) (ht : t.drv.dav = true) :
    Reaches s t [⟨t.drv.dio, t.drv.eoi, t.drv.atn⟩] :=
  ⟨1, runs_succ h (runs_zero t), by rw [busTrace, h]; simp [hs, ht, busTrace]⟩

/-! ### One rule per move -/

theorem mainStep_line {s : State} {f : Frame} {rest : List Frame} (h : s.pc = f :: rest) :
    mainStep s = runLine f rest s := by
  rw [mainStep, h]

/-- A `pass` gives the step to the line the position names. -/
theorem reaches_pass {s t : State} {q : List Item} (hin : s.inbox = passes 1 ++ q)
    (hmain : mainStep { s with inbox := q } = .next t) (hdav : t.drv.dav = true → s.drv.dav = true) :
    Reaches s t [] :=
  reaches_step ((step_pass hin).trans hmain) hdav

/-- A `pass` at a line that can do one thing only. -/
theorem reaches_line {s t : State} {f : Frame} {rest : List Frame} {q : List Item} (hpc : s.pc = f :: rest)
    (hin : s.inbox = passes 1 ++ q) (hrun : runLine f rest { s with inbox := q } = .next t)
    (hdav : t.drv.dav = true → s.drv.dav = true) : Reaches s t [] :=
  reaches_pass hin ((mainStep_line (s := { s with inbox := q }) hpc).trans hrun) hdav

/-- A `pass` at a line that ends the operation. -/
theorem reaches_finish {s t : State} {r : Ret} {rest : List Frame} {q : List Item} (hin : s.inbox = passes 1 ++ q)
    (hmain : mainStep { s with inbox := q } = .next (t.finish r rest)) (hdav : t.drv.dav = true → s.drv.dav = true) :
    Reaches s (t.finish r rest) [] :=
  reaches_pass hin hmain (by rwa [State.finish_drv])

/-- With nothing scheduled and no tick owed, the main loop goes on. -/
theorem reaches_own {s t : State} (hin : s.inbox = []) (hdue : s.tickDue = false) (hmain : mainStep s = .next t)
    (hdav : t.drv.dav = true → s.drv.dav = true) : Reaches s t [] :=
  reaches_step (by rw [step_nil hin, ownStep_notDue hdue, hmain]) hdav

/-- An event of the schedule is taken at once, where the block stands (R10). -/
theorem step_event {s : State} {i : Instr} {q : List Item} (hin : s.inbox = .message (encode i) :: q)
    (hwf : i.wf = true) (hk : i.kind = .event) (hb : isBurst i = false) (hport : i.port = .request) :
    step s = exec i { s with inbox := q } := by
  have hadmits : s.admits i = true := by simp [State.admits, hb, hk]
  rw [step_message hin (decodeMessage_encode hwf hport), if_pos hadmits]

theorem reaches_drive {s : State} {d : BusDrive} {q : List Item} (hin : s.inbox = drives d ++ q) :
    Reaches s { s with inbox := q, rem := s.rem.update d } [] :=
  reaches_step (step_event (i := .busDrive d) hin rfl rfl rfl rfl) id

/-- A tick counts while `tick_en`, below the count's saturation (R306). -/
theorem exec_tick {s : State} (hen : s.hs.tickEn = true) (hlt : s.hs.tmoCnt.toNat < 0xFFFF) :
    exec .tick s = .next { s with hs.tmoCnt := s.hs.tmoCnt + 1#16 } := by
  have hne : s.hs.tmoCnt ≠ 0xFFFF#16 := by
    intro h
    rw [h] at hlt
    exact Nat.lt_irrefl _ hlt
  change Host.Outcome.next (onTick s) = _
  rw [onTick, if_pos hen, saturatingSucc, if_neg hne]

theorem toNat_add_one_of_lt {n : Word16} (h : n.toNat < 0xFFFF) : (n + 1#16).toNat = n.toNat + 1 := by bv_omega

theorem toNat_lt_toNat_add_one {n : Word16} (h : n.toNat ≤ 3000) : n.toNat < (n + 1#16).toNat := by bv_omega

theorem reaches_ticks {n : Nat} {s : State} {q : List Item} (hin : s.inbox = ticks n ++ q)
    (hen : s.hs.tickEn = true) (hle : s.hs.tmoCnt.toNat + n ≤ 0xFFFF) :
    Reaches s { s with inbox := q, hs.tmoCnt := s.hs.tmoCnt + BitVec.ofNat 16 n } [] := by
  induction n generalizing s with
  | zero =>
    have hq : s.inbox = q := hin
    rw [BitVec.add_zero, ← hq]
    exact .refl s
  | succ n ih =>
    have htick : step s = .next { s with inbox := ticks n ++ q, hs.tmoCnt := s.hs.tmoCnt + 1#16 } :=
      (step_event (i := .tick) hin rfl rfl rfl rfl).trans
        (exec_tick (s := { s with inbox := ticks n ++ q }) hen (by dsimp only; omega))
    have hrest := ih (s := { s with inbox := ticks n ++ q, hs.tmoCnt := s.hs.tmoCnt + 1#16 }) rfl hen
      (by dsimp only; rw [toNat_add_one_of_lt (by omega)]; omega)
    have hsum : s.hs.tmoCnt + 1#16 + BitVec.ofNat 16 n = s.hs.tmoCnt + BitVec.ofNat 16 (n + 1) := by
      rw [BitVec.add_assoc, BitVec.ofNat_add, BitVec.add_comm 1#16]
    rw [← hsum]
    exact (reaches_step htick id).trans hrest

/-! ### The lines of `WAIT` (R150) -/

/-- The first poll of a `WAIT`: the counter is zeroed and the tick enabled. -/
def State.atPoll (s : State) (c : WaitCond) (frames : List Frame) : State :=
  { s with hs.tmoCnt := 0#16, hs.tickEn := true, pc := .wait c .w3 :: frames }

/-- What a `WAIT` leaves when it returns `r` to the operation `g` that called it. -/
def State.afterWait (s : State) (r : Ret) (g : Frame) (rest : List Frame) : State :=
  { s with hs.tickEn := false, pc := g :: rest, ret := r }

section
variable {s : State} {c : WaitCond} {g : Frame} {rest : List Frame}

theorem mainStep_w3_met (hpc : s.pc = .wait c .w3 :: g :: rest) (hc : c.holds s.bus = true) :
    mainStep s = .next (s.afterWait .met g rest) :=
  (mainStep_line hpc).trans (congrArg Host.Outcome.next (if_pos hc))

theorem mainStep_w3_notMet (hpc : s.pc = .wait c .w3 :: g :: rest) (hc : c.holds s.bus = false) :
    mainStep s = .next { s with pc := .wait c .w4 :: g :: rest } :=
  (mainStep_line hpc).trans (congrArg Host.Outcome.next (if_neg (Bool.eq_false_iff.mp hc)))

theorem State.bounded_iff : s.bounded = true ↔ s.cfg.timeoutMs.toNat < s.hs.tmoCnt.toNat := decide_eq_true_iff

theorem mainStep_w4_timedOut (hpc : s.pc = .wait c .w4 :: g :: rest)
    (hb : s.cfg.timeoutMs.toNat < s.hs.tmoCnt.toNat) : mainStep s = .next (s.afterWait .timedOut g rest) :=
  (mainStep_line hpc).trans (congrArg Host.Outcome.next (if_pos (State.bounded_iff.mpr hb)))

theorem mainStep_w4_again (hpc : s.pc = .wait c .w4 :: g :: rest)
    (hb : s.hs.tmoCnt.toNat ≤ s.cfg.timeoutMs.toNat) :
    mainStep s = .next { s with pc := .wait c .w3 :: g :: rest } :=
  (mainStep_line hpc).trans (congrArg Host.Outcome.next (if_neg (mt State.bounded_iff.mp (Nat.not_lt_of_le hb))))

variable {q : List Item}

theorem reaches_wait_start {frames : List Frame} (hpc : s.pc = .wait c .w1 :: frames)
    (hin : s.inbox = passes 2 ++ q) : Reaches s ({ s with inbox := q }.atPoll c frames) [] := by
  have hzero : Reaches s { s with inbox := passes 1 ++ q, hs.tmoCnt := 0#16, pc := .wait c .w2 :: frames } [] :=
    reaches_line hpc hin rfl id
  exact hzero.trans (reaches_line rfl rfl rfl id)

theorem reaches_poll_met (hpc : s.pc = .wait c .w3 :: g :: rest) (hin : s.inbox = passes 1 ++ q)
    (hc : c.holds s.bus = true) : Reaches s ({ s with inbox := q }.afterWait .met g rest) [] :=
  reaches_pass hin (mainStep_w3_met (s := { s with inbox := q }) hpc hc) id

/-- A poll within the bound whose condition does not hold comes back to the next one. -/
theorem reaches_poll_again (hpc : s.pc = .wait c .w3 :: g :: rest) (hin : s.inbox = passes 2 ++ q)
    (hc : c.holds s.bus = false) (hb : s.hs.tmoCnt.toNat ≤ s.cfg.timeoutMs.toNat) :
    Reaches s { s with inbox := q } [] := by
  have hsample := reaches_pass hin (mainStep_w3_notMet (s := { s with inbox := passes 1 ++ q }) hpc hc) id
  have hbound := mainStep_w4_again (s := { s with inbox := q, pc := .wait c .w4 :: g :: rest }) rfl hb
  rw [← hpc] at hbound
  exact hsample.trans (reaches_pass rfl hbound id)

theorem reaches_polls {n : Nat} (hpc : s.pc = .wait c .w3 :: g :: rest) (hin : s.inbox = passes (2 * n) ++ q)
    (hc : c.holds s.bus = false) (hb : s.hs.tmoCnt.toNat ≤ s.cfg.timeoutMs.toNat) :
    Reaches s { s with inbox := q } [] := by
  induction n generalizing s with
  | zero =>
    have hq : s.inbox = q := hin
    rw [← hq]
    exact .refl s
  | succ n ih =>
    exact (reaches_poll_again hpc (q := passes (2 * n) ++ q) hin hc hb).trans
      (ih (s := { s with inbox := passes (2 * n) ++ q }) hpc rfl hc hb)

/-- A poll past the bound whose condition does not hold is the last. -/
theorem reaches_poll_timedOut (hpc : s.pc = .wait c .w3 :: g :: rest) (hin : s.inbox = passes 2 ++ q)
    (hc : c.holds s.bus = false) (hb : s.cfg.timeoutMs.toNat < s.hs.tmoCnt.toNat) :
    Reaches s ({ s with inbox := q }.afterWait .timedOut g rest) [] := by
  have hsample := reaches_pass hin (mainStep_w3_notMet (s := { s with inbox := passes 1 ++ q }) hpc hc) id
  have hbound := mainStep_w4_timedOut (s := { s with inbox := q, pc := .wait c .w4 :: g :: rest }) rfl hb
  exact hsample.trans (reaches_pass rfl hbound id)

/-- `timeout_ms + 1` ticks at the first poll of a `WAIT` whose condition does not hold end it (R151). -/
theorem reaches_timeout (hpc : s.pc = .wait c .w3 :: g :: rest) (hen : s.hs.tickEn = true) (h0 : s.hs.tmoCnt = 0#16)
    (hc : c.holds s.bus = false) (hT : s.cfg.timeoutMs.toNat ≤ 3000)
    (hin : s.inbox = ticks (s.cfg.timeoutMs.toNat + 1) ++ (passes 2 ++ q)) :
    Reaches s ({ s with inbox := q, hs.tmoCnt := s.cfg.timeoutMs + 1#16 }.afterWait .timedOut g rest) [] := by
  have hcount : s.hs.tmoCnt + BitVec.ofNat 16 (s.cfg.timeoutMs.toNat + 1) = s.cfg.timeoutMs + 1#16 := by
    rw [h0, BitVec.zero_add, BitVec.ofNat_add, BitVec.ofNat_toNat, BitVec.setWidth_eq]
  have hticks := reaches_ticks hin hen (by rw [h0]; simp only [BitVec.toNat_ofNat]; omega)
  rw [hcount] at hticks
  have hpast : s.cfg.timeoutMs.toNat < (s.cfg.timeoutMs + 1#16).toNat := toNat_lt_toNat_add_one hT
  exact hticks.trans (reaches_poll_timedOut (q := q)
    (s := { s with inbox := passes 2 ++ q, hs.tmoCnt := s.cfg.timeoutMs + 1#16 }) hpc rfl hc hpast)

/-! ### A `WAIT` on its own: the ticks it is owed (R153, R312, R315) -/

theorem tickDue_at_w3 (hpc : s.pc = .wait c .w3 :: rest) : s.tickDue = false := by
  rw [State.tickDue, hpc]

theorem tickDue_of_holds (hpc : s.pc = .wait c .w4 :: rest) (hc : c.holds s.bus = true) : s.tickDue = false := by
  simp [State.tickDue, hpc, hc]

theorem tickDue_of_past (hb : s.cfg.timeoutMs.toNat < s.hs.tmoCnt.toNat) : s.tickDue = false := by
  rw [Bool.eq_false_iff, Ne, tickDue_iff]
  rintro ⟨-, -, -, -, -, hle⟩
  omega

/-- A `WAIT` whose condition holds is met at its next poll. -/
theorem reaches_own_met (hpc : s.pc = .wait c .w3 :: g :: rest ∨ s.pc = .wait c .w4 :: g :: rest)
    (hin : s.inbox = []) (hc : c.holds s.bus = true) (hb : s.hs.tmoCnt.toNat ≤ s.cfg.timeoutMs.toNat) :
    Reaches s (s.afterWait .met g rest) [] := by
  have hpoll {u : State} (hpc : u.pc = .wait c .w3 :: g :: rest) (hin : u.inbox = []) (hc : c.holds u.bus = true) :
      Reaches u (u.afterWait .met g rest) [] :=
    reaches_own hin (tickDue_at_w3 hpc) (mainStep_w3_met hpc hc) id
  obtain hpc | hpc := hpc
  · exact hpoll hpc hin hc
  · have hback := reaches_own hin (tickDue_of_holds hpc hc) (mainStep_w4_again hpc hb) id
    exact hback.trans (hpoll (u := { s with pc := .wait c .w3 :: g :: rest }) rfl hin hc)

theorem reaches_owed_tick (hpc : s.pc = .wait c .w4 :: g :: rest) (hin : s.inbox = []) (hen : s.hs.tickEn = true)
    (hc : c.holds s.bus = false) (hT : s.cfg.timeoutMs.toNat ≤ 3000)
    (hb : s.hs.tmoCnt.toNat ≤ s.cfg.timeoutMs.toNat) :
    Reaches s { s with hs.tmoCnt := s.hs.tmoCnt + 1#16 } [] := by
  have hdue : s.tickDue = true := tickDue_iff.mpr ⟨c, g :: rest, hpc, hen, hc, hb⟩
  exact reaches_step (by rw [step_nil hin, ownStep_due hdue, exec_tick hen (by omega)]) id

/-- At line `w4` a tick is owed until the count is past `timeout_ms`; then the wait ends. -/
theorem reaches_owed_timeout (hpc : s.pc = .wait c .w4 :: g :: rest) (hin : s.inbox = []) (hen : s.hs.tickEn = true)
    (hc : c.holds s.bus = false) (hT : s.cfg.timeoutMs.toNat ≤ 3000)
    (hb : s.hs.tmoCnt.toNat ≤ s.cfg.timeoutMs.toNat) :
    Reaches s ({ s with hs.tmoCnt := s.cfg.timeoutMs + 1#16 }.afterWait .timedOut g rest) [] := by
  obtain ⟨d, hd⟩ := Nat.exists_eq_add_of_le hb
  induction d generalizing s with
  | zero =>
    have hcount : s.hs.tmoCnt = s.cfg.timeoutMs := BitVec.eq_of_toNat_eq hd.symm
    have htick := reaches_owed_tick hpc hin hen hc hT hb
    rw [hcount] at htick
    have hpast : s.cfg.timeoutMs.toNat < (s.cfg.timeoutMs + 1#16).toNat :=
      toNat_lt_toNat_add_one hT
    exact htick.trans (reaches_own (s := { s with hs.tmoCnt := s.cfg.timeoutMs + 1#16 }) hin (tickDue_of_past hpast)
      (mainStep_w4_timedOut hpc hpast) id)
  | succ d ih =>
    have hcount : (s.hs.tmoCnt + 1#16).toNat = s.hs.tmoCnt.toNat + 1 := toNat_add_one_of_lt (by omega)
    exact (reaches_owed_tick hpc hin hen hc hT hb).trans
      (ih (s := { s with hs.tmoCnt := s.hs.tmoCnt + 1#16 }) hpc hin hen hc hT (by dsimp only; omega)
        (by dsimp only; omega))

/-- A `WAIT` whose condition does not hold times out. -/
theorem reaches_own_timeout (hpc : s.pc = .wait c .w3 :: g :: rest ∨ s.pc = .wait c .w4 :: g :: rest)
    (hin : s.inbox = []) (hen : s.hs.tickEn = true) (hc : c.holds s.bus = false) (hT : s.cfg.timeoutMs.toNat ≤ 3000)
    (hb : s.hs.tmoCnt.toNat ≤ s.cfg.timeoutMs.toNat) :
    Reaches s ({ s with hs.tmoCnt := s.cfg.timeoutMs + 1#16 }.afterWait .timedOut g rest) [] := by
  obtain hpc | hpc := hpc
  · have hpoll := reaches_own hin (tickDue_at_w3 hpc) (mainStep_w3_notMet hpc hc) id
    exact hpoll.trans (reaches_owed_timeout (s := { s with pc := .wait c .w4 :: g :: rest }) rfl hin hen hc hT hb)
  · exact reaches_owed_timeout hpc hin hen hc hT hb

end

end Sys2Proof.Machine

section
open Sys2Proof Sys2Proof.Machine

/-- Settles O17: the lines are the rules of `WAIT`; a polling one is met at its next poll or gets the ticks it is owed. -/
theorem waitLines : Obligations.WaitLines := by
  intro s c g rest
  refine ⟨mainStep_line, mainStep_line, fun hpc => ?_, fun hpc => ?_, fun hpc hin hen hT hb => ?_⟩
  · split
    · next hc => exact mainStep_w3_met hpc hc
    · next hc => exact mainStep_w3_notMet hpc (Bool.eq_false_iff.mpr hc)
  · split
    · next hb => exact mainStep_w4_timedOut hpc hb
    · next hb => exact mainStep_w4_again hpc (Nat.le_of_not_lt hb)
  · split
    · next hc => exact reaches_own_met hpc hin hc hb
    · next hc => exact reaches_own_timeout hpc hin hen (Bool.eq_false_iff.mpr hc) hT hb

end

end

section
/-!
PROOFS. `SEND_BYTE` and `RECEIVE_BYTE` under a schedule (R155 to R166).  An operation runs from one poll of a `WAIT` to
the next, and the stretches between the polls are put together with what the schedule does at each poll.  Each run
starts at what the operation's first line leaves, which is where a request (`exec`) and a call both arrive.
-/

namespace Sys2Proof.Machine

/-! ### The stretches of `SEND_BYTE` -/

section
variable {s : State} {v : Byte} {e : Bool} {rest : List Frame} {q : List Item}

/-- In talk configuration the acceptor lines are the environment's alone. -/
theorem contention_sendByte_s1 : (sendByteLine v e .s1 rest s).contention = (s.rem.nrfd && s.rem.ndac) := rfl

theorem mainStep_s2_free (hpc : s.pc = .sendByte v e .s2 :: rest) (hc : s.contention = false) :
    mainStep s = .next { s with pc := .sendByte v e .s3 :: rest } :=
  (mainStep_line hpc).trans (congrArg Host.Outcome.next (if_neg (Bool.eq_false_iff.mp hc)))

theorem mainStep_s2_contended (hpc : s.pc = .sendByte v e .s2 :: rest) (hc : s.contention = true) :
    mainStep s = .next (s.finish (.err .busContention) rest) :=
  (mainStep_line hpc).trans (congrArg Host.Outcome.next (if_pos hc))

theorem mainStep_s4_met (hpc : s.pc = .sendByte v e .s4 :: rest) (hret : s.ret = .met) :
    mainStep s = .next { s with pc := .sendByte v e .s5 :: rest } :=
  (mainStep_line hpc).trans (congrArg Host.Outcome.next (if_neg (by rw [hret]; nofun)))

theorem mainStep_s4_timedOut (hpc : s.pc = .sendByte v e .s4 :: rest) (hret : s.ret = .timedOut) :
    mainStep s = .next ({ s with drv.dio := 0x00#8 }.finish (.err .handshakeTimeout) rest) :=
  (mainStep_line hpc).trans (congrArg Host.Outcome.next (if_pos hret))

theorem mainStep_s7_met (hpc : s.pc = .sendByte v e .s7 :: rest) (hret : s.ret = .met) :
    mainStep s = .next { s with pc := .sendByte v e .s8 :: rest } :=
  (mainStep_line hpc).trans (congrArg Host.Outcome.next (if_neg (by rw [hret]; nofun)))

theorem mainStep_s7_timedOut (hpc : s.pc = .sendByte v e .s7 :: rest) (hret : s.ret = .timedOut) :
    mainStep s = .next (s.releaseTalker.finish (.err .handshakeTimeout) rest) :=
  (mainStep_line hpc).trans (congrArg Host.Outcome.next (if_pos hret))

theorem mainStep_s9 (hpc : s.pc = .sendByte v e .s9 :: rest) :
    mainStep s = .next ({ s with drv.eoi := false, drv.dio := 0x00#8 }.finish .ok rest) := mainStep_line hpc

/-- Line `s5` leaves EOI as asked, where it was released (R155). -/
theorem eoi_asked {eoi : Bool} (h : eoi = false) (e : Bool) : (if e then true else eoi) = e := by
  rw [h]; cases e <;> rfl

/-- From line `s1` to the first poll for NRFD: the byte is on the data lines. -/
theorem reaches_sendByte_readyPoll (hin : s.inbox = passes 4 ++ q) (hfree : (s.rem.nrfd && s.rem.ndac) = false) :
    Reaches (sendByteLine v e .s1 rest s)
      ({ s.talkConfig with inbox := q, drv.dio := v }.atPoll .nrfdReleased (.sendByte v e .s4 :: rest)) [] := by
  have hsample : Reaches (sendByteLine v e .s1 rest s)
      { s.talkConfig with inbox := passes 3 ++ q, pc := .sendByte v e .s3 :: rest } [] :=
    reaches_pass hin (mainStep_s2_free (e := e) rfl hfree) id
  have hdrive := hsample.trans (reaches_line (q := passes 2 ++ q) rfl rfl rfl id)
  exact hdrive.trans (reaches_wait_start rfl rfl)

/-- From line `s4`, the listener being ready, to the first poll for NDAC: the byte is on the bus. -/
theorem reaches_sendByte_acceptPoll (hpc : s.pc = .sendByte v e .s4 :: rest) (hret : s.ret = .met)
    (hdav : s.drv.dav = false) (heoi : s.drv.eoi = false) (hin : s.inbox = passes 5 ++ q) :
    Reaches s
      ({ s with inbox := q, drv.dav := true, drv.eoi := e }.atPoll .ndacReleased (.sendByte v e .s7 :: rest))
      [⟨s.drv.dio, e, s.drv.atn⟩] := by
  have hready : Reaches s { s with inbox := passes 4 ++ q, pc := .sendByte v e .s5 :: rest } [] :=
    reaches_pass hin (mainStep_s4_met (s := { s with inbox := passes 4 ++ q }) hpc hret) id
  have hasked : Reaches { s with inbox := passes 4 ++ q, pc := .sendByte v e .s5 :: rest }
      { s with inbox := passes 3 ++ q, drv.eoi := e, pc := .sendByte v e .s6 :: rest } [] := by
    refine reaches_line rfl rfl ?_ id
    rw [runLine, sendByteLine, eoi_asked heoi]
    rfl
  have hbyte := reaches_rise (s := { s with inbox := passes 3 ++ q, drv.eoi := e, pc := .sendByte v e .s6 :: rest })
    (step_pass (q := passes 2 ++ q) rfl) hdav rfl
  exact (hready.trans hasked).trans (hbyte.trans (reaches_wait_start rfl rfl))

/-- From line `s7`, the byte being accepted, to line `s9`: DAV is released. -/
theorem reaches_sendByte_s9 (hpc : s.pc = .sendByte v e .s7 :: rest) (hret : s.ret = .met)
    (hin : s.inbox = passes 2 ++ q) :
    Reaches s { s with inbox := q, drv.dav := false, pc := .sendByte v e .s9 :: rest } [] := by
  have haccepted := reaches_pass hin (mainStep_s7_met (s := { s with inbox := passes 1 ++ q }) hpc hret) id
  exact haccepted.trans (reaches_line rfl rfl rfl nofun)

theorem reaches_sendByte_end (hpc : s.pc = .sendByte v e .s9 :: rest) (hin : s.inbox = passes 1 ++ q) :
    Reaches s ({ s with inbox := q, drv.eoi := false, drv.dio := 0x00#8 }.finish .ok rest) [] :=
  reaches_finish hin (mainStep_s9 (s := { s with inbox := q }) hpc) id

/-! ### Whole runs of `SEND_BYTE` -/

/-- What a `SEND_BYTE` leaves of released talker lines when one of its waits has timed out (R159). -/
def State.sendTimedOut (s : State) : State :=
  { s with hs.xcvr := .talk, hs.tmoCnt := s.cfg.timeoutMs + 1#16, hs.tickEn := false, drv.nrfd := false,
           drv.ndac := false }

/-- A listener that asserts NRFD and releases NDAC, and then goes back to idle, ends where it began (R168). -/
theorem Drives.update_listener {r : Drives} (hnrfd : r.nrfd = false) (hndac : r.ndac = true) :
    (((r.update { BusDrive.none with nrfd := some true }).update { BusDrive.none with ndac := some false }).update
      { BusDrive.none with ndac := some true }).update { BusDrive.none with nrfd := some false } = r := by
  obtain ⟨atn, dav, eoi, nrfd, ndac, ifc, srq, ren, dio⟩ := r
  cases hnrfd
  cases hndac
  rfl

/-- Releasing released talker lines changes nothing. -/
theorem State.talkerReleased.drv_eq (h : s.talkerReleased) :
    { s.drv with dav := false, eoi := false, dio := 0x00#8 } = s.drv := by
  obtain ⟨hdav, heoi, hdio⟩ := h
  generalize s.drv = d at hdav heoi hdio ⊢
  obtain ⟨atn, dav, eoi, nrfd, ndac, ifc, srq, ren, dio⟩ := d
  cases hdav
  cases heoi
  cases hdio
  rfl

/-- From line `s1` to the first poll for NDAC, the listener being ready: the byte is on the bus. -/
theorem reaches_sendByte_ready (hrel : s.talkerReleased) (hnrfd : s.rem.nrfd = false)
    (hin : s.inbox = passes 10 ++ q) :
    Reaches (sendByteLine v e .s1 rest s)
      ({ s.talkConfig with inbox := q, drv.dio := v, drv.dav := true, drv.eoi := e, ret := .met }.atPoll .ndacReleased
        (.sendByte v e .s7 :: rest))
      [⟨v, e, s.drv.atn⟩] := by
  obtain ⟨hdav, heoi, -⟩ := hrel
  have hpoll := reaches_sendByte_readyPoll (v := v) (e := e) (rest := rest) (q := passes 6 ++ q) hin
    (by rw [hnrfd]; rfl)
  have hready : WaitCond.nrfdReleased.holds (s.talkConfig.drv.wiredOr s.rem) = true := congrArg not hnrfd
  have hmet := hpoll.trans (reaches_poll_met (q := passes 5 ++ q) rfl rfl hready)
  exact hmet.trans (reaches_sendByte_acceptPoll rfl rfl hdav heoi rfl)

/-- A conforming listener takes the byte, after any number of polls (R168). -/
theorem reaches_sendByte_listener {polls : Nat} (hrel : s.talkerReleased) (hnrfd : s.rem.nrfd = false)
    (hndac : s.rem.ndac = true) (hin : s.inbox = listenerByte polls ++ q) :
    Reaches (sendByteLine v e .s1 rest s) ({ s with inbox := q }.afterSend.finish .ok rest)
      [⟨v, e, s.drv.atn⟩] := by
  have hsched : s.inbox = passes 10 ++ (passes (2 * polls) ++
      (drives { BusDrive.none with nrfd := some true } ++ (drives { BusDrive.none with ndac := some false } ++
      (passes 3 ++ (drives { BusDrive.none with ndac := some true } ++
      (drives { BusDrive.none with nrfd := some false } ++ (passes 1 ++ q))))))) := by
    rw [hin, listenerByte, passes, List.replicate_add]
    simp only [List.append_assoc]
    rfl
  have hbyte := reaches_sendByte_ready (v := v) (e := e) (rest := rest) hrel hnrfd hsched
  have hheld : WaitCond.ndacReleased.holds (s.talkConfig.drv.wiredOr s.rem) = false := congrArg not hndac
  have hpolls := hbyte.trans (reaches_polls rfl rfl hheld (Nat.zero_le _))
  have haccept := (hpolls.trans (reaches_drive rfl)).trans (reaches_drive rfl)
  have hmet := haccept.trans (reaches_poll_met (q := passes 2 ++ _) rfl rfl rfl)
  have hidle := ((hmet.trans (reaches_sendByte_s9 rfl rfl rfl)).trans (reaches_drive rfl)).trans (reaches_drive rfl)
  have hend := hidle.trans (reaches_sendByte_end rfl rfl)
  exact hend.congr (congrArg (fun r : Drives => { s with inbox := q, rem := r }.afterSend.finish .ok rest)
    (Drives.update_listener hnrfd hndac))

/-- A listener that is never ready ends it before any byte is on the bus (R151, R167). -/
theorem reaches_sendByte_neverReady (hrel : s.talkerReleased) (hnrfd : s.rem.nrfd = true) (hndac : s.rem.ndac = false)
    (hT : s.cfg.timeoutMs.toNat ≤ 3000)
    (hin : s.inbox = passes 4 ++ (ticks (s.cfg.timeoutMs.toNat + 1) ++ (passes 3 ++ q))) :
    Reaches (sendByteLine v e .s1 rest s)
      ({ s with inbox := q }.sendTimedOut.finish (.err .handshakeTimeout) rest) [] := by
  have hpoll := reaches_sendByte_readyPoll (v := v) (e := e) (rest := rest) hin (by rw [hnrfd, hndac]; rfl)
  have hheld : WaitCond.nrfdReleased.holds (s.talkConfig.drv.wiredOr s.rem) = false := congrArg not hnrfd
  have htimeout := hpoll.trans (reaches_timeout (q := passes 1 ++ q) rfl rfl rfl hheld hT rfl)
  have hend := htimeout.trans (reaches_finish rfl (mainStep_s4_timedOut rfl rfl) id)
  have hdio : { s.drv with dio := 0x00#8 } = s.drv := by rw [← hrel.2.2]
  exact hend.congr (congrArg (fun d : Drives =>
    { s with inbox := q, drv := d }.sendTimedOut.finish (.err .handshakeTimeout) rest) hdio)

/-- A listener that is ready and never accepts sees the byte, and then every line the block drove is released (R158). -/
theorem reaches_sendByte_neverAccepted (hrel : s.talkerReleased) (hnrfd : s.rem.nrfd = false)
    (hndac : s.rem.ndac = true) (hT : s.cfg.timeoutMs.toNat ≤ 3000)
    (hin : s.inbox = passes 10 ++ (ticks (s.cfg.timeoutMs.toNat + 1) ++ (passes 3 ++ q))) :
    Reaches (sendByteLine v e .s1 rest s)
      ({ s with inbox := q }.sendTimedOut.finish (.err .handshakeTimeout) rest)
      [⟨v, e, s.drv.atn⟩] := by
  have hbyte := reaches_sendByte_ready (v := v) (e := e) (rest := rest) hrel hnrfd hin
  have hheld : WaitCond.ndacReleased.holds (s.talkConfig.drv.wiredOr s.rem) = false := congrArg not hndac
  have htimeout := hbyte.trans (reaches_timeout (q := passes 1 ++ q) rfl rfl rfl hheld hT rfl)
  have hend := htimeout.trans (reaches_finish rfl (mainStep_s7_timedOut rfl rfl) nofun)
  exact hend.congr (congrArg (fun d : Drives =>
    { s with inbox := q, drv := d }.sendTimedOut.finish (.err .handshakeTimeout) rest) hrel.drv_eq)

/-- While at most `timeout_ms` ticks have come the wait for a listener that is not ready goes on (R151). -/
theorem reaches_sendByte_stillPolling {n : Nat} (hnrfd : s.rem.nrfd = true) (hndac : s.rem.ndac = false)
    (hT : s.cfg.timeoutMs.toNat ≤ 3000) (hn : n ≤ s.cfg.timeoutMs.toNat)
    (hin : s.inbox = passes 4 ++ (ticks n ++ (passes 2 ++ q))) :
    ∃ u, Reaches (sendByteLine v e .s1 rest s) u [] ∧ u.inbox = q ∧
      u.pc = .wait .nrfdReleased .w3 :: .sendByte v e .s4 :: rest ∧ u.hs.tickEn = true ∧ u.hs.tmoCnt.toNat = n := by
  have hpoll := reaches_sendByte_readyPoll (v := v) (e := e) (rest := rest) hin (by rw [hnrfd, hndac]; rfl)
  have hheld : WaitCond.nrfdReleased.holds (s.talkConfig.drv.wiredOr s.rem) = false := congrArg not hnrfd
  have hcount : (0#16 + BitVec.ofNat 16 n).toNat = n := by
    rw [BitVec.zero_add, BitVec.toNat_ofNat]
    omega
  have hticks := hpoll.trans (reaches_ticks rfl rfl (by change 0 + n ≤ 0xFFFF; omega))
  have hagain := hticks.trans (reaches_poll_again (q := q) rfl rfl hheld (hcount.trans_le hn))
  exact ⟨_, hagain, rfl, rfl, rfl, hcount⟩

/-- Both acceptor lines held in the sample of line `s2` end it at once (R156). -/
theorem reaches_sendByte_contention (hin : s.inbox = []) (hnrfd : s.rem.nrfd = true) (hndac : s.rem.ndac = true) :
    Reaches (sendByteLine v e .s1 rest s) (s.talkConfig.finish (.err .busContention) rest) [] := by
  have hc : (sendByteLine v e .s1 rest s).contention = true := by
    rw [contention_sendByte_s1, hnrfd, hndac]; rfl
  exact reaches_own (s := sendByteLine v e .s1 rest s) hin rfl (mainStep_s2_contended rfl hc)
    (by rw [State.finish_drv]; exact id)

/-- With nobody else on the bus it needs no schedule. -/
theorem reaches_sendByte_silent (hrel : s.talkerReleased) (hs : s.silent) :
    Reaches (sendByteLine v e .s1 rest s) (s.afterSend.finish .ok rest) [⟨v, e, s.drv.atn⟩] := by
  obtain ⟨hdav, heoi, -⟩ := hrel
  have hrun := executes_sendByte (s := { s with pc := .sendByte v e .s1 :: rest }) hs rfl hdav heoi
  have hfirst : step { s with pc := .sendByte v e .s1 :: rest } = .next (sendByteLine v e .s1 rest s) :=
    step_nil (by exact hs.2)
  exact ⟨14, hrun.tail hfirst rfl⟩

end

/-! ### The stretches of `RECEIVE_BYTE` -/

section
variable {s : State} {rest : List Frame} {q : List Item}

theorem mainStep_r4_met (hpc : s.pc = .receiveByte .r4 :: rest) (hret : s.ret = .met) :
    mainStep s = .next { s with pc := .receiveByte .r5 :: rest } :=
  (mainStep_line hpc).trans (congrArg Host.Outcome.next (if_neg (by rw [hret]; nofun)))

theorem mainStep_r4_timedOut (hpc : s.pc = .receiveByte .r4 :: rest) (hret : s.ret = .timedOut) :
    mainStep s = .next ({ s with drv.nrfd := true }.finish (.err .handshakeTimeout) rest) :=
  (mainStep_line hpc).trans (congrArg Host.Outcome.next (if_pos hret))

theorem mainStep_r8_met (hpc : s.pc = .receiveByte .r8 :: rest) (hret : s.ret = .met) :
    mainStep s = .next { s with pc := .receiveByte .r9 :: rest } :=
  (mainStep_line hpc).trans (congrArg Host.Outcome.next (if_neg (by rw [hret]; nofun)))

theorem mainStep_r8_timedOut (hpc : s.pc = .receiveByte .r8 :: rest) (hret : s.ret = .timedOut) :
    mainStep s = .next ({ s with drv.ndac := true }.finish (.err .handshakeTimeout) rest) :=
  (mainStep_line hpc).trans (congrArg Host.Outcome.next (if_pos hret))

theorem mainStep_r10 (hpc : s.pc = .receiveByte .r10 :: rest) :
    mainStep s = .next ({ s with drv.nrfd := false }.finish (.okByteEoi s.hs.latData s.hs.latEoi) rest) :=
  mainStep_line hpc

/-- From line `r1` to the first poll for DAV: NDAC is held and the block is ready. -/
theorem reaches_receiveByte_davPoll (hin : s.inbox = passes 4 ++ q) :
    Reaches (receiveByteLine .r1 rest s)
      ({ s.listenConfig with inbox := q, drv.ndac := true, drv.nrfd := false }.atPoll .davAsserted
        (.receiveByte .r4 :: rest)) [] := by
  have hheld : Reaches (receiveByteLine .r1 rest s)
      { s.listenConfig with inbox := passes 3 ++ q, drv.ndac := true, pc := .receiveByte .r3 :: rest } [] :=
    reaches_line rfl hin rfl id
  have hready := hheld.trans (reaches_line (q := passes 2 ++ q) rfl rfl rfl id)
  exact hready.trans (reaches_wait_start rfl rfl)

/-- From a poll that finds DAV to the first poll for its release: the byte and EOI are latched, and accepted. -/
theorem reaches_receiveByte_latched (hpc : s.pc = .wait .davAsserted .w3 :: .receiveByte .r4 :: rest)
    (hdav : s.bus.dav = true) (hin : s.inbox = passes 7 ++ q) :
    Reaches s
      ({ s with inbox := q, hs.latData := s.bus.dio, hs.latEoi := s.bus.eoi, drv.nrfd := true, drv.ndac := false,
                ret := .met }.atPoll .davReleased (.receiveByte .r8 :: rest)) [] := by
  have hmet := reaches_poll_met (q := passes 6 ++ q) hpc hin hdav
  have hlatch := (hmet.trans (reaches_pass (q := passes 5 ++ q) rfl (mainStep_r4_met rfl rfl) id)).trans
    (reaches_line (q := passes 4 ++ q) rfl rfl rfl id)
  have haccept := (hlatch.trans (reaches_line (q := passes 3 ++ q) rfl rfl rfl id)).trans
    (reaches_line (q := passes 2 ++ q) rfl rfl rfl id)
  exact haccept.trans (reaches_wait_start rfl rfl)

/-- From a poll that finds DAV released to the end: the byte is returned. -/
theorem reaches_receiveByte_end (hpc : s.pc = .wait .davReleased .w3 :: .receiveByte .r8 :: rest)
    (hdav : s.bus.dav = false) (hin : s.inbox = passes 4 ++ q) :
    Reaches s
      ({ s with inbox := q, hs.tickEn := false, drv.ndac := true, drv.nrfd := false }.finish
        (.okByteEoi s.hs.latData s.hs.latEoi) rest) [] := by
  have hmet := reaches_poll_met (q := passes 3 ++ q) hpc hin (by rw [WaitCond.holds, hdav]; rfl)
  have hheld := (hmet.trans (reaches_pass (q := passes 2 ++ q) rfl (mainStep_r8_met rfl rfl) id)).trans
    (reaches_line (q := passes 1 ++ q) rfl rfl rfl id)
  exact hheld.trans (reaches_finish rfl (mainStep_r10 rfl) id)

/-! ### Whole runs of `RECEIVE_BYTE` -/

/-- A talker that puts a byte on the bus and takes it off again ends where it began (R168). -/
theorem Drives.update_talker {r : Drives} (hdav : r.dav = false) (heoi : r.eoi = false) (hdio : r.dio = 0x00#8)
    (v : Byte) (e : Bool) : (r.update (talkerOn v e)).update talkerOff = r := by
  obtain ⟨atn, dav, eoi, nrfd, ndac, ifc, srq, ren, dio⟩ := r
  cases hdav
  cases heoi
  cases hdio
  rfl

/-- A conforming talker's byte is latched and returned (R163, R168). -/
theorem reaches_receiveByte_talker {v : Byte} {e : Bool} (hn : s.noTalker)
    (hin : s.inbox = (talkerByte v e 4).tail ++ q) :
    Reaches (receiveByteLine .r1 rest s) (({ s with inbox := q }.afterReceive v e).finish (.okByteEoi v e) rest)
      [] := by
  obtain ⟨hdav, heoi, hdio⟩ := hn
  have hsched : s.inbox =
      passes 4 ++ (drives (talkerOn v e) ++ (passes 7 ++ (drives talkerOff ++ (passes 4 ++ q)))) := by
    rw [hin, talkerByte]
    simp only [List.append_assoc]
    rfl
  have htalk := (reaches_receiveByte_davPoll (rest := rest) hsched).trans (reaches_drive rfl)
  have hlatched := (htalk.trans (reaches_receiveByte_latched rfl rfl rfl)).trans (reaches_drive rfl)
  have hend := hlatched.trans (reaches_receiveByte_end rfl rfl rfl)
  exact hend.congr (congrArg₂ (fun (r : Drives) (b : Byte) =>
    ({ s with inbox := q, rem := r }.afterReceive b e).finish (.okByteEoi b e) rest)
    (Drives.update_talker hdav heoi hdio v e) BitVec.zero_or)

/-- Without DAV nothing is latched (R162). -/
theorem reaches_receiveByte_noDav (hdav : s.rem.dav = false) (hT : s.cfg.timeoutMs.toNat ≤ 3000)
    (hin : s.inbox = passes 4 ++ (ticks (s.cfg.timeoutMs.toNat + 1) ++ (passes 3 ++ q))) :
    Reaches (receiveByteLine .r1 rest s)
      ({ s.listenConfig with inbox := q, hs.tmoCnt := s.cfg.timeoutMs + 1#16, hs.tickEn := false, drv.ndac := true,
                             drv.nrfd := true }.finish (.err .handshakeTimeout) rest) [] := by
  have hpoll := reaches_receiveByte_davPoll (rest := rest) hin
  have htimeout := hpoll.trans (reaches_timeout (q := passes 1 ++ q) rfl rfl rfl hdav hT rfl)
  exact htimeout.trans (reaches_finish rfl (mainStep_r4_timedOut rfl rfl) id)

/-- With DAV never released the byte is latched and not returned (R164). -/
theorem reaches_receiveByte_davHeld (hdav : s.rem.dav = true) (hT : s.cfg.timeoutMs.toNat ≤ 3000)
    (hin : s.inbox = passes 11 ++ (ticks (s.cfg.timeoutMs.toNat + 1) ++ (passes 3 ++ q))) :
    Reaches (receiveByteLine .r1 rest s)
      ({ s.listenConfig with inbox := q, hs := { tmoCnt := s.cfg.timeoutMs + 1#16, tickEn := false, xcvr := .listen,
                                                 latData := s.rem.dio, latEoi := s.rem.eoi },
                             drv.ndac := true, drv.nrfd := true }.finish (.err .handshakeTimeout) rest) [] := by
  have hpoll := reaches_receiveByte_davPoll (rest := rest) (q := passes 7 ++ _) hin
  have hlatched := hpoll.trans (reaches_receiveByte_latched rfl hdav rfl)
  have hheld : WaitCond.davReleased.holds (s.listenConfig.drv.wiredOr s.rem) = false := congrArg not hdav
  have htimeout := hlatched.trans (reaches_timeout (q := passes 1 ++ q) rfl rfl rfl hheld hT rfl)
  have hend := htimeout.trans (reaches_finish rfl (mainStep_r8_timedOut rfl rfl) id)
  exact hend.congr (congrArg (fun b : Byte =>
    { s.listenConfig with inbox := q, hs := { tmoCnt := s.cfg.timeoutMs + 1#16, tickEn := false, xcvr := .listen,
                                              latData := b, latEoi := s.rem.eoi },
                          drv.ndac := true, drv.nrfd := true }.finish (.err .handshakeTimeout) rest) BitVec.zero_or)

end

/-! ### A run from a request -/

theorem exec_sendByte_reaches {s u : State} {v : Byte} {e : Bool} {tr : List Talked} (hpc : s.pc = [])
    (h : Reaches (sendByteLine v e .s1 [] s) u tr) : ∃ t k, exec (.sendByte v e) s = .next t ∧ Executes k t u tr := by
  obtain ⟨k, hk⟩ := h
  exact ⟨_, k, State.accept_idle _ hpc, hk⟩

theorem exec_receiveByte_reaches {s u : State} {tr : List Talked} (hpc : s.pc = [])
    (h : Reaches (receiveByteLine .r1 [] s) u tr) : ∃ t k, exec .receiveByte s = .next t ∧ Executes k t u tr := by
  obtain ⟨k, hk⟩ := h
  exact ⟨_, k, State.accept_idle _ hpc, hk⟩

/-- An idle block whose talker lines are where they should be drives none of them. -/
theorem State.talkerOk.released_of_idle {s : State} (h : s.talkerOk) (hpc : s.pc = []) : s.talkerReleased :=
  h.released (by rw [hpc]; exact List.forall_mem_nil _)

end Sys2Proof.Machine

section
open Sys2Proof Sys2Proof.Machine

/-- Settles O18: the silent run of the byte engine, after its first line. -/
theorem sendByteCompletes : Obligations.SendByteCompletes := by
  intro s v e hpc htalk hs
  exact exec_sendByte_reaches hpc (reaches_sendByte_silent (htalk.released_of_idle hpc) hs)

/-- Settles O19: polls that find NDAC held come back, and the poll after the listener's move is met. -/
theorem sendByteToListener : Obligations.SendByteToListener := by
  intro s v e polls q hpc htalk hnrfd hndac hin
  exact exec_sendByte_reaches hpc (reaches_sendByte_listener (htalk.released_of_idle hpc) hnrfd hndac hin)

/-- Settles O20: contention ends it at line `s2`, and each of the two waits ends by its ticks. -/
theorem sendByteNeverReady : Obligations.SendByteNeverReady := by
  refine ⟨fun s v e hpc hin hnrfd hndac => ?_, fun s v e q hpc htalk hnrfd hndac hT hin => ?_,
    fun s v e q hpc htalk hnrfd hndac hT => ⟨fun n hn hin => ?_, fun hin => ?_⟩⟩
  · exact exec_sendByte_reaches hpc (reaches_sendByte_contention hin hnrfd hndac)
  · rw [List.append_assoc, List.append_assoc] at hin
    exact exec_sendByte_reaches hpc
      (reaches_sendByte_neverAccepted (htalk.released_of_idle hpc) hnrfd hndac hT hin)
  · rw [List.append_assoc, List.append_assoc] at hin
    obtain ⟨u, hu, hpolling⟩ := reaches_sendByte_stillPolling hnrfd hndac hT hn hin
    obtain ⟨t, k, ht, hk⟩ := exec_sendByte_reaches hpc hu
    exact ⟨t, k, u, ht, hk, hpolling⟩
  · rw [List.append_assoc, List.append_assoc] at hin
    exact exec_sendByte_reaches hpc
      (reaches_sendByte_neverReady (htalk.released_of_idle hpc) hnrfd hndac hT hin)

/-- Settles O21: the talker's two moves fall at the two polls. -/
theorem receiveByteCompletes : Obligations.ReceiveByteCompletes := by
  intro s v e q hpc hn hin
  exact exec_receiveByte_reaches hpc (reaches_receiveByte_talker hn hin)

/-- Settles O22: the wait for DAV, or the wait for its release, ends by its ticks. -/
theorem receiveByteTimeouts : Obligations.ReceiveByteTimeouts := by
  refine fun s q hpc hT => ⟨fun hdav hin => ?_, fun hdav hin => ?_⟩
  · rw [List.append_assoc, List.append_assoc] at hin
    exact exec_receiveByte_reaches hpc (reaches_receiveByte_noDav hdav hT hin)
  · rw [List.append_assoc, List.append_assoc] at hin
    exact exec_receiveByte_reaches hpc (reaches_receiveByte_davHeld hdav hT hin)

end

end

section
/-!
PROOFS. The handshake lines in every step (R157, R161, R164).  An operation that calls the byte engine leaves the talker
lines released and stacks only frames that have set no handshake line (`OutsideEngine`).  `WAIT` drives nothing, and
each line of `SEND_BYTE` and of `RECEIVE_BYTE` sets what its next line relies on.
-/

namespace Sys2Proof.Machine

/-! ### Frames that have set no handshake line -/

/-- The frame is outside the byte engine, or at the first line of it. -/
def Frame.engineIdle : Frame → Bool
  | .sendByte _ _ l => decide (l = .s1)
  | .receiveByte l => decide (l = .r1)
  | _ => true

theorem engineIdle_of_rank {f : Frame} (h : 1 < f.rank) : f.engineIdle = true := by
  cases f with
  | sendByte v e l | receiveByte l => exact absurd h (Nat.lt_irrefl 1)
  | _ => rfl

theorem engineIdle_of_quiet {f : Frame} (h : f.quiet = true) : f.engineIdle = true := by
  cases f with
  | sendByte v e l | receiveByte l => exact h
  | _ => rfl

theorem talkerLines_of_engineIdle {pc : List Frame} (h : ∀ g ∈ pc, g.engineIdle = true) :
    talkerLines pc = (false, false, 0x00#8) := by
  induction pc with
  | nil => rfl
  | cons f fs ih =>
    obtain ⟨hf, hfs⟩ := List.forall_mem_cons.mp h
    cases f with
    | sendByte v e l => cases of_decide_eq_true hf; rfl
    | _ => exact ih hfs

theorem talkerLines_receiveByte (l : ReceiveByteLine) (rest : List Frame) :
    talkerLines (.receiveByte l :: rest) = talkerLines rest := rfl

theorem acceptorLines_of_engineIdle {f : Frame} (h : f.engineIdle = true) (d : Drives) : acceptorLines d f = true := by
  cases f with
  | receiveByte l => cases of_decide_eq_true h; rfl
  | _ => rfl

/-! ### The two facts at a sequencer position -/

section
variable {s : State} {rest fs : List Frame} {f : Frame}

theorem State.talkerOk_iff : s.talkerOk ↔ s.drv.dav = (talkerLines s.pc).1 ∧ s.drv.eoi = (talkerLines s.pc).2.1 ∧
    s.drv.dio = (talkerLines s.pc).2.2 := by
  rw [State.talkerOk, Prod.ext_iff, Prod.ext_iff]

theorem State.talkerOk_of_released (hr : s.talkerReleased) (hpc : ∀ g ∈ s.pc, g.engineIdle = true) : s.talkerOk := by
  rw [State.talkerOk_iff, talkerLines_of_engineIdle hpc]
  exact hr

theorem State.acceptorOk_iff : s.acceptorOk ↔ ∀ g ∈ s.pc, acceptorLines s.drv g = true := List.all_eq_true

theorem State.acceptorOk_of_engineIdle (hpc : ∀ g ∈ s.pc, g.engineIdle = true) : s.acceptorOk :=
  State.acceptorOk_iff.mpr fun g hg => acceptorLines_of_engineIdle (hpc g hg) s.drv

theorem State.acceptorOk_push (h : (s.goto fs).acceptorOk) (hf : acceptorLines s.drv f = true := by rfl) :
    (s.goto (f :: fs)).acceptorOk := by
  rw [State.acceptorOk_iff] at h ⊢
  exact List.forall_mem_cons.mpr ⟨hf, h⟩

variable (hrest : ∀ g ∈ rest, g.engineIdle = true)
include hrest

theorem State.talkerOk_goto_rest (hr : s.talkerReleased) : (s.goto rest).talkerOk :=
  State.talkerOk_of_released hr hrest

theorem State.talkerOk_finish (hr : s.talkerReleased) (r : Ret) : (s.finish r rest).talkerOk := by
  refine State.talkerOk_of_released ?_ (by rwa [State.finish_pc])
  rwa [State.talkerReleased, State.finish_drv]

theorem State.acceptorOk_goto_rest : (s.goto rest).acceptorOk := State.acceptorOk_of_engineIdle hrest

theorem State.acceptorOk_finish (r : Ret) : (s.finish r rest).acceptorOk :=
  State.acceptorOk_of_engineIdle (by rwa [State.finish_pc])

end

/-! ### Lines outside the byte engine -/

/-- What a line of an operation called by `rest` may do to the handshake: it keeps released talker lines released, and
its own frames have set no handshake line. -/
structure OutsideEngine (rest : List Frame) (s t : State) : Prop where
  talker : s.talkerReleased → t.talkerReleased := by exact id
  frames : ∀ g ∈ t.pc, g ∈ rest ∨ g.engineIdle = true := by exact fun _ hg => .inl hg

namespace OutsideEngine

variable {rest fs : List Frame} {s t u : State} {f : Frame}

theorem push (h : OutsideEngine rest s (t.goto fs)) (hf : f.engineIdle = true := by rfl) :
    OutsideEngine rest s (t.goto (f :: fs)) where
  talker := h.talker
  frames := List.forall_mem_cons.mpr ⟨.inr hf, h.frames⟩

theorem finish (h : OutsideEngine rest s (t.goto rest)) (r : Ret) : OutsideEngine rest s (t.finish r rest) where
  talker := by rw [State.talkerReleased, State.talkerReleased, State.finish_drv]; exact h.talker
  frames := by rw [State.finish_pc]; exact h.frames

theorem ite {c : Prop} [Decidable c] (ht : OutsideEngine rest s t) (hu : OutsideEngine rest s u) :
    OutsideEngine rest s (if c then t else u) := by
  split
  · exact ht
  · exact hu

theorem of_movesOnly (m : MovesOnly rest s t) : OutsideEngine rest s t where
  talker := by rw [State.talkerReleased, State.talkerReleased, m.drv]; exact id
  frames := by
    obtain ⟨new, hpc, hq⟩ := m.pc
    intro g hg
    rw [hpc, List.mem_append] at hg
    exact hg.symm.imp_right fun hg => engineIdle_of_quiet (hq g hg)

end OutsideEngine

section
variable (rest : List Frame) (s : State)

theorem sendCommandLine_outsideEngine (b : Byte) (l : SendCommandLine) :
    OutsideEngine rest s (sendCommandLine b l rest s) := by
  cases l with
  | c1 => exact .ite (.push (.push {})) (.finish {} _)
  | c3 => exact .push {}
  | c4 => exact .finish {} _

theorem sendIfcLine_outsideEngine (l : SendIfcLine) : OutsideEngine rest s (sendIfcLine l rest s) := by
  cases l with
  | i1 => exact .ite (.push {}) (.finish {} _)
  | i3 => exact .push {}
  | i4 => exact .finish {} _

theorem devClearLine_outsideEngine (l : DevClearLine) : OutsideEngine rest s (devClearLine l rest s) := by
  cases l with
  | e1 | e2 => exact .push {}
  | e3 => exact {}

theorem deviceCycleLine_outsideEngine (l : DeviceCycleLine) : OutsideEngine rest s (deviceCycleLine l rest s) := by
  by_cases hl : l = .v3Srq
  · subst hl; exact .push {}
  · exact .of_movesOnly (deviceCycleLine_movesOnly rest s hl)

theorem listenOnlyLine_outsideEngine (l : ListenOnlyLine) : OutsideEngine rest s (listenOnlyLine l rest s) := by
  cases l with
  | l1 => exact .ite (.finish {} _) (.push {})
  | l1Talker => exact .push { talker := fun _ => ⟨rfl, rfl, rfl⟩ }
  | l1Acceptor => exact .push {}
  | l2 | l2Ret | l3 | l3Ret => exact .of_movesOnly (listenOnlyLine_movesOnly rest s nofun nofun nofun)

theorem setRoleLine_outsideEngine (new : Role) (l : SetRoleLine) : OutsideEngine rest s (setRoleLine new l rest s) := by
  cases l with
  | t2 | t3 => exact .push {}
  | t4 => exact .push { talker := fun _ => ⟨rfl, rfl, rfl⟩ }
  | t5 => cases new <;> exact .push {}
  | t6 => exact .finish {} _

theorem setListenOnlyLine_outsideEngine (on : Bool) (l : SetListenOnlyLine) :
    OutsideEngine rest s (setListenOnlyLine on l rest s) := by
  cases l with
  | n2 | n4 => exact .push {}
  | n3 => exact .push { talker := fun _ => ⟨rfl, rfl, rfl⟩ }
  | n5 => exact .finish {} _

end

/-- Boot stands alone on the stack, and its idle drives release the talker lines (R343). -/
theorem bootLine_outsideEngine {l : BootLine} {s t : State} (h : bootLine l s = .next t) : OutsideEngine [] s t := by
  cases l with
  | b1 =>
    rw [bootLine] at h
    split_ifs at h
    cases h
    exact .push {}
  | b2 =>
    cases h
    refine .push { talker := fun _ => ?_ }
    cases s.cfg.role <;> exact ⟨rfl, rfl, rfl⟩
  | b4 => cases h; exact .push {}
  | b5 => cases h; exact {}

theorem runLine_outsideEngine {f : Frame} {rest : List Frame} {s t : State} (hn : nested (f :: rest) = true)
    (hf : 1 < f.rank) (hrun : runLine f rest s = .next t) : OutsideEngine rest s t := by
  cases f with
  | wait c l => exact absurd hf (Nat.not_lt_zero 1)
  | sendByte v e l | receiveByte l => exact absurd hf (Nat.lt_irrefl 1)
  | boot l => rw [nested_alone hn rfl]; exact bootLine_outsideEngine hrun
  | sendCommand b l => cases hrun; exact sendCommandLine_outsideEngine rest s b l
  | sendData todo e => cases hrun; exact .of_movesOnly (sendDataLine_movesOnly rest s todo e)
  | receiveMessage m c l => cases hrun; exact .of_movesOnly (receiveMessageLine_movesOnly rest s m c l)
  | addressingSetup todo => cases hrun; exact .of_movesOnly (addressingSetupLine_movesOnly rest s todo)
  | readStatusByte p a u l => cases hrun; exact .of_movesOnly (readStatusByteLine_movesOnly rest s p a u l)
  | sendIfc l => cases hrun; exact sendIfcLine_outsideEngine rest s l
  | groupTrigger todo first l => cases hrun; exact .of_movesOnly (groupTriggerLine_movesOnly rest s todo first l)
  | devClear l => cases hrun; exact devClearLine_outsideEngine rest s l
  | deviceCycle l => cases hrun; exact deviceCycleLine_outsideEngine rest s l
  | listenOnlyCycle l => cases hrun; exact listenOnlyLine_outsideEngine rest s l
  | mainCycle l => cases hrun; exact .of_movesOnly (mainCycleLine_movesOnly rest s l)
  | setRole new l => cases hrun; exact setRoleLine_outsideEngine rest s new l
  | setListenOnly on l => cases hrun; exact setListenOnlyLine_outsideEngine rest s on l

/-! ### The lines of the byte engine -/

/-- A step keeps both facts about the handshake lines. -/
structure KeepsHandshake (s t : State) : Prop where
  talker : s.talkerOk → t.talkerOk := by exact id
  acceptor : s.acceptorOk → t.acceptorOk := by exact id

theorem OutsideEngine.keepsHandshake {rest : List Frame} {s t : State} (h : OutsideEngine rest s t)
    (hs : ∀ g ∈ s.pc, g.engineIdle = true) (hrest : ∀ g ∈ rest, g.engineIdle = true) : KeepsHandshake s t := by
  have hpc : ∀ g ∈ t.pc, g.engineIdle = true := fun g hg => (h.frames g hg).elim (hrest g) id
  refine ⟨fun ht => State.talkerOk_of_released (h.talker ?_) hpc, fun _ => State.acceptorOk_of_engineIdle hpc⟩
  rw [State.talkerOk_iff, talkerLines_of_engineIdle hs] at ht
  exact ht

/-- A `WAIT` drives nothing, and both facts are about its callers. -/
theorem waitLine_keepsHandshake {c : WaitCond} {l : WaitLine} {rest : List Frame} {s : State}
    (hpc : s.pc = .wait c l :: rest) : KeepsHandshake s (waitLine c l rest s) := by
  have of_pc {t : State} (hdrv : t.drv = s.drv) (ht : t.pc = rest ∨ ∃ l', t.pc = .wait c l' :: rest) :
      KeepsHandshake s t := by
    have htalk : talkerLines t.pc = talkerLines s.pc := by
      rw [hpc]
      obtain ht | ⟨l', ht⟩ := ht <;> rw [ht] <;> rfl
    have haccept : t.pc.all (acceptorLines t.drv) = s.pc.all (acceptorLines s.drv) := by
      rw [hpc, hdrv]
      obtain ht | ⟨l', ht⟩ := ht <;> rw [ht] <;> rfl
    refine ⟨?_, ?_⟩
    · rw [State.talkerOk, State.talkerOk, htalk, hdrv]; exact id
    · rw [State.acceptorOk, State.acceptorOk, haccept]; exact id
  cases l with
  | w1 | w2 => exact of_pc rfl (.inr ⟨_, rfl⟩)
  | w3 | w4 =>
    rw [waitLine]
    split
    · exact of_pc (State.finish_drv ..) (.inl (State.finish_pc ..))
    · exact of_pc rfl (.inr ⟨_, rfl⟩)

section
variable {rest : List Frame} {s : State} (hrest : ∀ g ∈ rest, g.engineIdle = true)
include hrest

/-- Each line of `SEND_BYTE` drives what its next line says the bus carries (R157, R158). -/
theorem sendByteLine_talkerOk {v : Byte} {e : Bool} {l : SendByteLine}
    (hs : (s.drv.dav, s.drv.eoi, s.drv.dio) = l.talker v e) : (sendByteLine v e l rest s).talkerOk := by
  obtain ⟨hdav, heoi, hdio⟩ := Prod.mk.inj hs |>.imp_right Prod.mk.inj
  have ended {u : State} {r : Ret} (hu : u.talkerReleased) : (u.finish r rest).talkerOk :=
    State.talkerOk_finish hrest hu r
  cases l with
  | s1 => exact hs
  | s2 =>
    rw [sendByteLine]
    split
    · exact ended (u := s) ⟨hdav, heoi, hdio⟩
    · exact hs
  | s3 => exact State.talkerOk_iff.mpr ⟨hdav, heoi, rfl⟩
  | s4 =>
    rw [sendByteLine]
    split
    · exact ended (u := { s with drv.dio := 0x00#8 }) ⟨hdav, heoi, rfl⟩
    · exact hs
  | s5 => exact State.talkerOk_iff.mpr ⟨hdav, eoi_asked heoi e, hdio⟩
  | s6 => exact State.talkerOk_iff.mpr ⟨rfl, heoi, hdio⟩
  | s7 =>
    rw [sendByteLine]
    split
    · exact ended (u := s.releaseTalker) ⟨rfl, rfl, rfl⟩
    · exact hs
  | s8 => exact State.talkerOk_iff.mpr ⟨rfl, heoi, hdio⟩
  | s9 => exact ended (u := { s with drv.eoi := false, drv.dio := 0x00#8 }) ⟨hdav, rfl, rfl⟩

/-- No line of `RECEIVE_BYTE` stands under a `SEND_BYTE`. -/
theorem sendByteLine_acceptorOk (v : Byte) (e : Bool) (l : SendByteLine) :
    (sendByteLine v e l rest s).acceptorOk := by
  have callers {u : State} : (u.goto rest).acceptorOk := State.acceptorOk_goto_rest hrest
  cases l with
  | s1 | s5 | s8 => exact State.acceptorOk_push callers
  | s2 | s4 | s7 =>
    rw [sendByteLine]
    split
    · exact State.acceptorOk_finish hrest _
    · exact State.acceptorOk_push callers
  | s3 | s6 => exact State.acceptorOk_push (State.acceptorOk_push callers)
  | s9 => exact State.acceptorOk_finish hrest _

/-- `RECEIVE_BYTE` releases the talker lines at its first line and leaves them (R160). -/
theorem receiveByteLine_talkerOk {l : ReceiveByteLine} (hs : s.talkerReleased) :
    (receiveByteLine l rest s).talkerOk := by
  have callers {u : State} (hu : u.talkerReleased) : (u.goto rest).talkerOk := State.talkerOk_goto_rest hrest hu
  cases l with
  | r1 => exact callers (u := s.listenConfig) ⟨rfl, rfl, rfl⟩
  | r2 | r3 | r5 | r6 | r7 | r9 => exact callers hs
  | r4 | r8 =>
    rw [receiveByteLine]
    split
    · exact State.talkerOk_finish hrest (by exact hs) _
    · exact callers hs
  | r10 => exact State.talkerOk_finish hrest (by exact hs) _

/-- Each line of `RECEIVE_BYTE` leaves NRFD and NDAC as its next line relies on them (R160, R161, R164). -/
theorem receiveByteLine_acceptorOk {l : ReceiveByteLine} (hs : l.acceptorOk s.drv.nrfd s.drv.ndac = true) :
    (receiveByteLine l rest s).acceptorOk := by
  have callers {u : State} : (u.goto rest).acceptorOk := State.acceptorOk_goto_rest hrest
  cases l with
  | r1 | r2 => exact State.acceptorOk_push callers
  | r3 => exact State.acceptorOk_push (State.acceptorOk_push callers hs)
  | r4 | r8 =>
    rw [receiveByteLine]
    split
    · exact State.acceptorOk_finish hrest _
    · exact State.acceptorOk_push callers hs
  | r5 => exact State.acceptorOk_push callers hs
  | r6 =>
    obtain ⟨-, hndac⟩ := (Bool.and_eq_true _ _).mp hs
    exact State.acceptorOk_push callers hndac
  | r7 =>
    obtain ⟨hnrfd, -⟩ := (Bool.and_eq_true _ _).mp hs
    exact State.acceptorOk_push (State.acceptorOk_push callers ((Bool.and_eq_true _ _).mpr ⟨hnrfd, rfl⟩))
  | r9 =>
    obtain ⟨hnrfd, -⟩ := (Bool.and_eq_true _ _).mp hs
    exact State.acceptorOk_push callers ((Bool.and_eq_true _ _).mpr ⟨hnrfd, rfl⟩)
  | r10 => exact State.acceptorOk_finish hrest _

end

/-! ### The invariant of a step -/

theorem runLine_keepsHandshake {f : Frame} {rest : List Frame} {s t : State} (hpc : s.pc = f :: rest)
    (hn : nested s.pc = true) (hrun : runLine f rest s = .next t) : KeepsHandshake s t := by
  rw [hpc] at hn
  by_cases hf : 1 < f.rank
  · have hrest : ∀ g ∈ rest, g.engineIdle = true := fun g hg => engineIdle_of_rank (hf.trans (nested_rank hn g hg))
    refine (runLine_outsideEngine hn hf hrun).keepsHandshake ?_ hrest
    rw [hpc]
    exact List.forall_mem_cons.mpr ⟨engineIdle_of_rank hf, hrest⟩
  · have callers (hr : f.rank = 1) : ∀ g ∈ rest, g.engineIdle = true := fun g hg =>
      engineIdle_of_rank (hr ▸ nested_rank hn g hg)
    cases f with
    | wait c l => cases hrun; exact waitLine_keepsHandshake hpc
    | sendByte v e l =>
      cases hrun
      refine ⟨fun hs => sendByteLine_talkerOk (callers rfl) ?_, fun _ => sendByteLine_acceptorOk (callers rfl) v e l⟩
      rw [State.talkerOk, hpc] at hs
      exact hs
    | receiveByte l =>
      cases hrun
      refine ⟨fun hs => receiveByteLine_talkerOk (callers rfl) ?_,
        fun hs => receiveByteLine_acceptorOk (callers rfl) ?_⟩
      · rw [State.talkerOk_iff, hpc, talkerLines_receiveByte, talkerLines_of_engineIdle (callers rfl)] at hs
        exact hs
      · rw [State.acceptorOk_iff, hpc] at hs
        exact hs _ List.mem_cons_self
    | _ => exact absurd (by simp [Frame.rank]) hf

/-- The first line of a request, on an idle block. -/
theorem request_keepsHandshake {i : Instr} (hk : i.kind = .request) {s t : State} (hpc : s.pc = [])
    (hexec : exec i s = .next t) : KeepsHandshake s t := by
  have hidle : ∀ g ∈ s.pc, g.engineIdle = true := by rw [hpc]; exact List.forall_mem_nil _
  have hreleased (hs : s.talkerOk) : s.talkerReleased := hs.released_of_idle hpc
  have taken {u : State} (ha : s.accept u = .next t) (hu : OutsideEngine [] s u) : KeepsHandshake s t := by
    obtain ⟨-, rfl⟩ := State.accept_next ha
    exact hu.keepsHandshake hidle (List.forall_mem_nil _)
  cases i with
  | sendByte v e =>
    obtain ⟨-, rfl⟩ := State.accept_next hexec
    refine ⟨fun hs => sendByteLine_talkerOk (List.forall_mem_nil _) ?_,
      fun _ => sendByteLine_acceptorOk (List.forall_mem_nil _) v e .s1⟩
    rw [State.talkerOk, hpc] at hs
    exact hs
  | receiveByte =>
    obtain ⟨-, rfl⟩ := State.accept_next hexec
    exact ⟨fun hs => receiveByteLine_talkerOk (List.forall_mem_nil _) (hreleased hs),
      fun _ => receiveByteLine_acceptorOk (List.forall_mem_nil _) rfl⟩
  | sendCommand b => exact taken hexec (sendCommandLine_outsideEngine [] s b .c1)
  | sendData buffer e => exact taken hexec (.of_movesOnly (enterSendData_movesOnly [] s buffer e))
  | receiveMessage m c => exact taken hexec (.push (.push {}))
  | addressingSetup p a u d => exact taken hexec (.of_movesOnly (enterAddressingSetup_movesOnly [] s p a u d))
  | readStatusByte p a u => exact taken hexec (.of_movesOnly (enterReadStatusByte_movesOnly [] s p a u))
  | sendIfc => exact taken hexec (sendIfcLine_outsideEngine [] s .i1)
  | sendGroupTrigger list => exact taken hexec (.of_movesOnly (enterGroupTrigger_movesOnly [] s list))
  | popRecord | setStatus v => exact taken hexec (.finish {} _)
  | deviceCycle => exact taken hexec (deviceCycleLine_outsideEngine [] s .v1)
  | listenOnlyCycle => exact taken hexec (listenOnlyLine_outsideEngine [] s .l1)
  | mainCycle => exact taken hexec (.of_movesOnly (mainCycleLine_movesOnly [] s .k1))
  | setRole r | setListenOnly on => exact taken hexec (.push {})
  | setSrq on => exact taken hexec (.ite (.finish {} _) (.finish {} _))
  | setConfig w => exact taken hexec (.ite (.finish {} _) (.finish {} _))
  | _ => cases hk

/-- An event drives nothing of the block's, but for `RESET`, which releases every line (R340). -/
theorem event_keepsHandshake {i : Instr} (hk : i.kind = .event) {s t : State} (hexec : exec i s = .next t) :
    KeepsHandshake s t := by
  cases i with
  | rxBurst bs => rw [exec_rxBurst_next hexec]; exact {}
  | tick =>
    cases hexec
    unfold onTick
    split <;> exact {}
  | busDrive d => cases hexec; exact {}
  | reset => cases hexec; exact ⟨fun _ => rfl, fun _ => rfl⟩
  | _ => cases hk

end Sys2Proof.Machine

section
open Sys2Proof Sys2Proof.Machine

/-- Settles O23: a line, a request or an event keeps both facts, on the state with the schedule advanced. -/
theorem handshakeLinesInvariant : Obligations.HandshakeLinesInvariant := by
  intro s t hn hstep
  obtain ⟨q, p, rfl, hmove⟩ := step_moves hstep
  have h : KeepsHandshake { s with inbox := q } t := by
    obtain ⟨f, rest, hpc, hrun⟩ | ⟨hpc, hrun⟩ | ⟨i, hk, hpc, hexec⟩ | ⟨i, hk, -, hexec⟩ := hmove
    · exact runLine_keepsHandshake hpc hn hrun
    · exact request_keepsHandshake (i := .mainCycle) rfl hpc hrun
    · exact request_keepsHandshake hk hpc hexec
    · exact event_keepsHandshake hk hexec
  exact ⟨h.talker, h.acceptor⟩

end

end

section
/-!
PROOFS. The messages the block sends (R180 to R184), with nobody else on the bus.  An operation that calls `SEND_BYTE`
gets its `Ok()` back in a state that can send the next byte, so `SEND_DATA` is an induction over the bytes still to
send.
-/

namespace Sys2Proof.Machine

/-- What an operation leaves does not depend on where it stood, nor on what its last call returned. -/
theorem State.finish_congr {s t : State} {r : Ret} {rest : List Frame}
    (h : { s with pc := rest, ret := r } = { t with pc := rest, ret := r }) : s.finish r rest = t.finish r rest := by
  have moved (u : State) : u.finish r rest = State.finish { u with pc := rest, ret := r } r rest := by
    cases rest <;> rfl
  rw [moved s, moved t, h]

section
variable {s : State} {rest : List Frame} (hrel : s.talkerReleased) (hs : s.silent)
include hrel hs

/-- A `SEND_BYTE` called with nobody else on the bus returns `Ok()`. -/
theorem reaches_called_sendByte (v : Byte) (e : Bool) :
    Reaches (s.goto (.sendByte v e .s1 :: rest)) (s.afterSend.finish .ok rest) [⟨v, e, s.drv.atn⟩] := by
  have hcall : Reaches (s.goto (.sendByte v e .s1 :: rest)) (sendByteLine v e .s1 rest s) [] :=
    reaches_own hs.2 rfl rfl id
  exact hcall.trans (reaches_sendByte_silent hrel hs)

/-- The byte goes out under ATN, which line `c4` releases (R181). -/
theorem reaches_sendCommand_silent (b : Byte) (hc : s.isController = true) :
    Reaches (sendCommandLine b .c1 rest s) (State.finish { s.afterSend with drv.atn := false } .ok rest)
      [⟨b, false, true⟩] := by
  have hcall : sendCommandLine b .c1 rest s =
      State.goto { s with drv.atn := true } (.sendByte b false .s1 :: .sendCommand b .c3 :: rest) := if_pos hc
  rw [hcall]
  have hsent := reaches_called_sendByte (s := { s with drv.atn := true }) (rest := .sendCommand b .c3 :: rest) hrel hs b
    false
  have hc3 := hsent.trans (reaches_own hs.2 rfl rfl id)
  have hc4 := hc3.trans (reaches_own (t := State.finish _ .ok rest) hs.2 rfl rfl (by rw [State.finish_drv]; exact id))
  exact hc4.congr (State.finish_congr rfl)

/-- The loop of `SEND_DATA` sends what is left, EOI with the last byte only (R184). -/
theorem reaches_sendDataLoop (todo : List Byte) (useEoi : Bool) :
    Reaches (sendDataLoop todo useEoi rest s) ((if todo = [] then s else s.afterSend).finish .ok rest)
      (talkedMessage useEoi s.drv.atn todo) := by
  induction todo generalizing s with
  | nil => exact .refl _
  | cons b bs ih =>
    have hsent := reaches_called_sendByte (rest := .sendData bs useEoi :: rest) hrel hs b (useEoi && bs.isEmpty)
    have hloop := hsent.trans (reaches_own hs.2 rfl rfl (by rw [(sendDataLine_movesOnly ..).drv]; exact id))
    have hrest := hloop.trans (ih ⟨rfl, rfl, rfl⟩ hs)
    rw [if_neg (List.cons_ne_nil b bs)]
    refine hrest.congr ?_
    split <;> exact State.finish_congr rfl

end

theorem eosBytes_eq (mode : BitVec 2) : eosBytes mode =
    if mode.toNat = 0 then [0x0D#8, 0x0A#8] else if mode.toNat = 1 then [0x0D#8]
    else if mode.toNat = 2 then [0x0A#8] else [] := by
  revert mode
  decide

end Sys2Proof.Machine

section
open Sys2Proof Sys2Proof.Machine

/-- Settles O25: `SEND_DATA` enters its loop with the payload and the EOS bytes. -/
theorem sendDataCompletes : Obligations.SendDataCompletes := by
  intro s buffer useEoi hpc htalk hs
  dsimp only
  rw [← eosBytes_eq]
  obtain ⟨k, hk⟩ := reaches_sendDataLoop (rest := []) (htalk.released_of_idle hpc) hs
    (buffer ++ eosBytes s.cfg.eosMode) useEoi
  exact ⟨_, k, State.accept_idle _ hpc, hk⟩

/-- Settles O24: the role check passes, and the byte is sent under ATN. -/
theorem sendCommandCompletes : Obligations.SendCommandCompletes := by
  intro s b hpc htalk hs hrole
  obtain ⟨k, hk⟩ := reaches_sendCommand_silent (rest := []) (htalk.released_of_idle hpc) hs b (decide_eq_true hrole)
  exact ⟨_, k, State.accept_idle _ hpc, hk⟩

end

end

section
/-!
PROOFS. The messages the block receives (R185 to R187).  Each byte that does not end the message takes `RECEIVE_MESSAGE`
back to its first line with the byte forwarded, so a message is an induction over those bytes; then the byte that ends
it, or the timeout.
-/

namespace Sys2Proof.Machine

section
variable {s : State} {mode : RecvMode} {stop v : Byte} {eoi : Bool} {reason : EndReason} {rest : List Frame}
  {q : List Item}

/-! ### The lines of `RECEIVE_MESSAGE` -/

theorem mainStep_m1_received (hpc : s.pc = .receiveMessage mode stop .m1 :: rest) (hret : s.ret = .okByteEoi v eoi) :
    mainStep s = .next (s.goto (.receiveMessage mode stop (.m2 v eoi) :: rest)) := by
  rw [mainStep_line hpc, runLine, receiveMessageLine, hret]

theorem mainStep_m1_failed {e : ErrKind} (hpc : s.pc = .receiveMessage mode stop .m1 :: rest) (hret : s.ret = .err e) :
    mainStep s = .next (s.goto (.receiveMessage mode stop (.m3 .timeout) :: rest)) := by
  rw [mainStep_line hpc, runLine, receiveMessageLine, hret]

theorem mainStep_m2 (hpc : s.pc = .receiveMessage mode stop (.m2 v eoi) :: rest) :
    mainStep s = .next (forwardByte mode stop v eoi rest s) := mainStep_line hpc

theorem mainStep_m3 (hpc : s.pc = .receiveMessage mode stop (.m3 reason) :: rest) :
    mainStep s = .next (State.finish { s with out.linkTx := s.out.linkTx ++ s.eotBytes } (.ended reason) rest) := by
  rw [mainStep_line hpc, runLine, receiveMessageLine, State.eotBytes]
  split
  · rfl
  · rw [List.append_nil]

theorem forwardByte_more (h : messageEnd mode stop v eoi = none) :
    forwardByte mode stop v eoi rest s = enterReceiveMessage mode stop rest (s.emitLink v) := by
  rw [forwardByte, h]
  rfl

theorem forwardByte_ends (h : messageEnd mode stop v eoi = some reason) :
    forwardByte mode stop v eoi rest s = (s.emitLink v).goto (.receiveMessage mode stop (.m3 reason) :: rest) := by
  rw [forwardByte, h]

theorem forwardByte_drv : (forwardByte mode stop v eoi rest s).drv = s.drv :=
  (receiveMessageLine_movesOnly rest s mode stop (.m2 v eoi)).drv

/-! ### Runs of `RECEIVE_MESSAGE` -/

/-- The state at line `m2` with a talker's byte received. -/
def State.atForward (s : State) (mode : RecvMode) (stop v : Byte) (eoi : Bool) (rest : List Frame) : State :=
  { s.afterReceive v eoi with pc := .receiveMessage mode stop (.m2 v eoi) :: rest, ret := .okByteEoi v eoi }

/-- The call of line `m1` runs the first line of `RECEIVE_BYTE`. -/
theorem reaches_receiveMessage_call (hin : s.inbox = passes 1 ++ q) :
    Reaches (enterReceiveMessage mode stop rest s)
      (receiveByteLine .r1 (.receiveMessage mode stop .m1 :: rest) { s with inbox := q }) [] :=
  reaches_line rfl hin rfl nofun

/-- A conforming talker's byte is received and forwarded (R186). -/
theorem reaches_forwardByte (hn : s.noTalker) (hin : s.inbox = talkerByte v eoi 6 ++ q) :
    Reaches (enterReceiveMessage mode stop rest s)
      (forwardByte mode stop v eoi rest ({ s with inbox := q }.atForward mode stop v eoi rest)) [] := by
  have hcall := reaches_receiveMessage_call (mode := mode) (stop := stop) (rest := rest)
    (q := (talkerByte v eoi 4).tail ++ (passes 2 ++ q)) hin
  have hbyte := hcall.trans (reaches_receiveByte_talker (q := passes 2 ++ q) hn rfl)
  have hm1 := hbyte.trans (reaches_pass (q := passes 1 ++ q) rfl (mainStep_m1_received rfl rfl) id)
  exact hm1.trans (reaches_pass rfl (mainStep_m2 rfl) (by rw [forwardByte_drv]; exact id))

/-- A byte that does not end the message: the next one is awaited. -/
theorem reaches_nextByte (hn : s.noTalker) (hmore : messageEnd mode stop v eoi = none)
    (hin : s.inbox = talkerByte v eoi 6 ++ q) :
    Reaches (enterReceiveMessage mode stop rest s)
      (enterReceiveMessage mode stop rest (({ s with inbox := q }.atForward mode stop v eoi rest).emitLink v)) [] :=
  (reaches_forwardByte hn hin).congr (forwardByte_more hmore)

/-- The byte that ends the message. -/
theorem reaches_lastByte (hn : s.noTalker) (hend : messageEnd mode stop v eoi = some reason)
    (hin : s.inbox = talkerByte v eoi 6 ++ (passes 1 ++ q)) :
    Reaches (enterReceiveMessage mode stop rest s)
      (({ s with inbox := q, out.linkTx := s.out.linkTx ++ [v] ++ s.eotBytes }.afterReceive v eoi).finish
        (.ended reason) rest) [] := by
  have hlast := (reaches_forwardByte (rest := rest) hn hin).congr (forwardByte_ends hend)
  have hm3 := hlast.trans (reaches_finish rfl (mainStep_m3 rfl) id)
  exact hm3.congr (State.finish_congr rfl)

/-- A message is forwarded byte by byte, the last one included (R185, R186). -/
theorem reaches_message {init : List (Byte × Bool)} (hn : s.noTalker)
    (hmore : ∀ x ∈ init, messageEnd mode stop x.1 x.2 = none) (hend : messageEnd mode stop v eoi = some reason)
    (hin : s.inbox = talkerMessage (init ++ [(v, eoi)]) ++ (passes 1 ++ q)) :
    Reaches (enterReceiveMessage mode stop rest s)
      (({ s with inbox := q, out.linkTx := s.out.linkTx ++ init.map Prod.fst ++ [v] ++ s.eotBytes }.afterReceive v
        eoi).finish (.ended reason) rest) [] := by
  induction init generalizing s with
  | nil =>
    rw [List.map_nil, List.append_nil]
    exact reaches_lastByte hn hend hin
  | cons x xs ih =>
    obtain ⟨hx, hxs⟩ := List.forall_mem_cons.mp hmore
    have hfirst := reaches_nextByte (rest := rest) hn hx (hin.trans (List.append_assoc ..))
    have hmessage := hfirst.trans (ih hn hxs rfl)
    have hsent : s.out.linkTx ++ [x.1] ++ xs.map Prod.fst = s.out.linkTx ++ (x :: xs).map Prod.fst :=
      List.append_assoc ..
    rw [← hsent]
    exact hmessage.congr (State.finish_congr rfl)

/-- What a message that ended by its timeout leaves, `byte` and `last` being what the latch held (R162, R166, R187). -/
def State.messageTimedOut (s : State) (sent : List Byte) (byte : Byte) (last : Bool) : State :=
  { s with hs := { tmoCnt := s.cfg.timeoutMs + 1#16, tickEn := false, xcvr := .listen, latData := byte,
                   latEoi := last },
           drv := { s.drv with dav := false, eoi := false, dio := 0x00#8, nrfd := true, ndac := true },
           out.linkTx := s.out.linkTx ++ sent ++ s.eotBytes }

/-- Without DAV the message ends here (R185). -/
theorem reaches_noByte (hdav : s.rem.dav = false) (hT : s.cfg.timeoutMs.toNat ≤ 3000)
    (hin : s.inbox = passes 5 ++ (ticks (s.cfg.timeoutMs.toNat + 1) ++ (passes 5 ++ q))) :
    Reaches (enterReceiveMessage mode stop rest s)
      (({ s with inbox := q }.messageTimedOut [] s.hs.latData s.hs.latEoi).finish (.ended .timeout) rest) [] := by
  have hcall := reaches_receiveMessage_call (mode := mode) (stop := stop) (rest := rest)
    (q := passes 4 ++ (ticks (s.cfg.timeoutMs.toNat + 1) ++ (passes 3 ++ (passes 2 ++ q)))) hin
  have htimeout := hcall.trans (reaches_receiveByte_noDav (q := passes 2 ++ q) hdav hT rfl)
  have hm1 := htimeout.trans (reaches_pass (q := passes 1 ++ q) rfl (mainStep_m1_failed rfl rfl) id)
  have hm3 := hm1.trans (reaches_finish rfl (mainStep_m3 rfl) id)
  rw [State.messageTimedOut, List.append_nil]
  exact hm3.congr (State.finish_congr rfl)

/-- A message cut short has been forwarded as far as it came (R185, R186). -/
theorem reaches_messageTimedOut {init : List (Byte × Bool)} (hn : s.noTalker) (hT : s.cfg.timeoutMs.toNat ≤ 3000)
    (hmore : ∀ x ∈ init, messageEnd mode stop x.1 x.2 = none)
    (hin : s.inbox = talkerMessage init ++ (passes 5 ++ (ticks (s.cfg.timeoutMs.toNat + 1) ++ (passes 5 ++ q)))) :
    ∃ byte last, Reaches (enterReceiveMessage mode stop rest s)
      (({ s with inbox := q }.messageTimedOut (init.map Prod.fst) byte last).finish (.ended .timeout) rest) [] := by
  induction init generalizing s with
  | nil => exact ⟨_, _, reaches_noByte hn.1 hT hin⟩
  | cons x xs ih =>
    obtain ⟨hx, hxs⟩ := List.forall_mem_cons.mp hmore
    have hfirst := reaches_nextByte (rest := rest) hn hx (hin.trans (List.append_assoc ..))
    have hrest := ih (s := ({ s with inbox := talkerMessage xs ++ (passes 5 ++ (ticks (s.cfg.timeoutMs.toNat + 1) ++
      (passes 5 ++ q))) }.atForward mode stop x.1 x.2 rest).emitLink x.1) hn hT hxs rfl
    obtain ⟨byte, last, hcut⟩ := hrest
    have hsent : s.out.linkTx ++ [x.1] ++ xs.map Prod.fst = s.out.linkTx ++ (x :: xs).map Prod.fst :=
      List.append_assoc ..
    refine ⟨byte, last, ?_⟩
    rw [State.messageTimedOut, ← hsent]
    exact (hfirst.trans hcut).congr (State.finish_congr rfl)

end

theorem exec_receiveMessage_reaches {s u : State} {mode : RecvMode} {stop : Byte} {tr : List Talked} (hpc : s.pc = [])
    (h : Reaches (enterReceiveMessage mode stop [] s) u tr) :
    ∃ t k, exec (.receiveMessage mode stop) s = .next t ∧ Executes k t u tr := by
  obtain ⟨k, hk⟩ := h
  exact ⟨_, k, State.accept_idle _ hpc, hk⟩

end Sys2Proof.Machine

section
open Sys2Proof Sys2Proof.Machine

/-- Settles O26: the three end conditions by definition, and the message byte by byte. -/
theorem receiveMessageCompletes : Obligations.ReceiveMessageCompletes := by
  refine ⟨fun stop b eoi => ⟨rfl, rfl, rfl⟩, fun s mode stop init v eoi reason q hpc hn hmore hend hin => ?_⟩
  rw [List.append_assoc] at hin
  exact exec_receiveMessage_reaches hpc (reaches_message hn hmore hend hin)

/-- Settles O27: the bytes that came, and then the timeout of the `RECEIVE_BYTE` that waits for the next. -/
theorem receiveMessageTimesOut : Obligations.ReceiveMessageTimesOut := by
  intro s mode stop init q hpc hn hT hmore hin
  rw [List.append_assoc, List.append_assoc, List.append_assoc] at hin
  obtain ⟨byte, last, hcut⟩ := reaches_messageTimedOut (rest := []) hn hT hmore hin
  obtain ⟨t, k, ht, hk⟩ := exec_receiveMessage_reaches hpc hcut
  exact ⟨t, k, _, ht, hk, rfl, rfl, rfl, rfl, rfl, rfl, rfl, rfl, rfl, rfl, rfl, rfl, rfl, rfl⟩

end

end

section
/-!
PROOFS. ATN and IFC in every step (R181, R208).  Only `SEND_COMMAND`, `SEND_IFC`, `SET_ROLE`, boot and `RESET` drive one
of the two lines.  `SEND_COMMAND` does not call itself, and the other four have no caller.  Every other line leaves both
as they are and stacks no frame that holds one (`LeavesControl`).
-/

namespace Sys2Proof.Machine

/-! ### Lines that leave ATN and IFC alone -/

/-- From `s` to `t` the block leaves ATN and IFC, and the frames above `rest`, if any, hold neither. -/
structure LeavesControl (rest : List Frame) (s t : State) : Prop where
  atn : t.drv.atn = s.drv.atn := by rfl
  ifc : t.drv.ifc = s.drv.ifc := by rfl
  holdsAtn : t.pc.any Frame.holdsAtn = rest.any Frame.holdsAtn := by rfl
  holdsIfc : t.pc.any Frame.holdsIfc = rest.any Frame.holdsIfc := by rfl

theorem holdsAtn_of_quiet {f : Frame} (h : f.quiet = true) : f.holdsAtn = false := by
  cases f with
  | sendCommand b l => cases of_decide_eq_true h; rfl
  | _ => rfl

theorem holdsIfc_of_quiet {f : Frame} (h : f.quiet = true) : f.holdsIfc = false := by
  cases f with
  | sendIfc l => cases of_decide_eq_true h; rfl
  | _ => rfl

namespace LeavesControl

variable {rest : List Frame} {s t u : State}

theorem finish (h : LeavesControl rest s (t.goto rest)) (r : Ret) : LeavesControl rest s (t.finish r rest) where
  atn := by rw [State.finish_drv]; exact h.atn
  ifc := by rw [State.finish_drv]; exact h.ifc
  holdsAtn := by rw [State.finish_pc]
  holdsIfc := by rw [State.finish_pc]

theorem ite {c : Prop} [Decidable c] (ht : LeavesControl rest s t) (hu : LeavesControl rest s u) :
    LeavesControl rest s (if c then t else u) := by
  split
  · exact ht
  · exact hu

theorem of_movesOnly (m : MovesOnly rest s t) : LeavesControl rest s t := by
  obtain ⟨new, hpc, hq⟩ := m.pc
  refine ⟨by rw [m.drv], by rw [m.drv], ?_, ?_⟩
  · rw [hpc, List.any_append, List.any_eq_false.mpr fun g hg => by simp [holdsAtn_of_quiet (hq g hg)], Bool.false_or]
  · rw [hpc, List.any_append, List.any_eq_false.mpr fun g hg => by simp [holdsIfc_of_quiet (hq g hg)], Bool.false_or]

/-- Where ATN and IFC are as the callers say, they stay so. -/
theorem controlLinesOk (h : LeavesControl rest s t) (hs : (s.goto rest).controlLinesOk) : t.controlLinesOk :=
  ⟨h.atn.trans (hs.1.trans h.holdsAtn.symm), h.ifc.trans (hs.2.trans h.holdsIfc.symm)⟩

end LeavesControl

section
variable (rest : List Frame) (s : State)

theorem waitLine_leavesControl (c : WaitCond) (l : WaitLine) : LeavesControl rest s (waitLine c l rest s) := by
  cases l with
  | w1 | w2 => exact {}
  | w3 | w4 => exact .ite (.finish {} _) {}

theorem sendByteLine_leavesControl (v : Byte) (e : Bool) (l : SendByteLine) :
    LeavesControl rest s (sendByteLine v e l rest s) := by
  cases l with
  | s1 | s3 | s5 | s6 | s8 => exact {}
  | s2 | s4 | s7 => exact .ite (.finish {} _) {}
  | s9 => exact .finish {} _

theorem receiveByteLine_leavesControl (l : ReceiveByteLine) : LeavesControl rest s (receiveByteLine l rest s) := by
  cases l with
  | r1 | r2 | r3 | r5 | r6 | r7 | r9 => exact {}
  | r4 | r8 => exact .ite (.finish {} _) {}
  | r10 => exact .finish {} _

theorem devClearLine_leavesControl (l : DevClearLine) : LeavesControl rest s (devClearLine l rest s) := by
  cases l <;> exact {}

theorem deviceCycleLine_leavesControl (l : DeviceCycleLine) : LeavesControl rest s (deviceCycleLine l rest s) := by
  by_cases hl : l = .v3Srq
  · subst hl; exact {}
  · exact .of_movesOnly (deviceCycleLine_movesOnly rest s hl)

theorem listenOnlyLine_leavesControl (l : ListenOnlyLine) : LeavesControl rest s (listenOnlyLine l rest s) := by
  cases l with
  | l1 => exact .ite (.finish {} _) {}
  | l1Talker | l1Acceptor => exact {}
  | l2 | l2Ret | l3 | l3Ret => exact .of_movesOnly (listenOnlyLine_movesOnly rest s nofun nofun nofun)

theorem setListenOnlyLine_leavesControl (on : Bool) (l : SetListenOnlyLine) :
    LeavesControl rest s (setListenOnlyLine on l rest s) := by
  cases l with
  | n2 | n3 | n4 => exact {}
  | n5 => exact .finish {} _

end

/-! ### Lines that drive ATN or IFC -/

section
variable {s : State} {rest : List Frame}

/-- ATN is asserted with the first frame that holds it, and released with the last: no caller of a `SEND_COMMAND` is
one (R181). -/
theorem sendCommandLine_controlLinesOk {b : Byte} {l : SendCommandLine}
    (hcallers : rest.any Frame.holdsAtn = false) (hs : (s.goto (.sendCommand b l :: rest)).controlLinesOk) :
    (sendCommandLine b l rest s).controlLinesOk := by
  obtain ⟨hatn, hifc⟩ := hs
  cases l with
  | c1 =>
    rw [sendCommandLine]
    split
    · exact ⟨rfl, hifc⟩
    · exact (LeavesControl.finish (s := s) {} _).controlLinesOk ⟨hatn, hifc⟩
  | c3 => exact ⟨hatn, hifc⟩
  | c4 =>
    have hreleased : (State.goto { s with drv.atn := false } rest).controlLinesOk := ⟨hcallers.symm, hifc⟩
    exact (LeavesControl.finish {} _).controlLinesOk hreleased

/-- IFC is asserted with the first frame that holds it, and released with the last (R208). -/
theorem sendIfcLine_controlLinesOk {l : SendIfcLine} (hs : (s.goto [.sendIfc l]).controlLinesOk) :
    (sendIfcLine l [] s).controlLinesOk := by
  obtain ⟨hatn, hifc⟩ := hs
  cases l with
  | i1 =>
    rw [sendIfcLine]
    split
    · exact ⟨hatn, rfl⟩
    · exact ⟨hatn, hifc⟩
  | i3 => exact ⟨hatn, hifc⟩
  | i4 => exact ⟨hatn, rfl⟩

/-- `SET_ROLE` stands alone on the stack, so both lines are released before it releases them (R255). -/
theorem setRoleLine_controlLinesOk {new : Role} {l : SetRoleLine} (hs : (s.goto []).controlLinesOk) :
    (setRoleLine new l [] s).controlLinesOk := by
  cases l with
  | t3 => exact ⟨rfl, rfl⟩
  | t2 | t4 | t6 => exact hs
  | t5 => cases new <;> exact hs

/-- Boot stands alone on the stack, and its idle drives release both lines (R343). -/
theorem bootLine_controlLinesOk {l : BootLine} {t : State} (hs : (s.goto []).controlLinesOk)
    (hrun : bootLine l s = .next t) : t.controlLinesOk := by
  cases l with
  | b1 =>
    rw [bootLine] at hrun
    split_ifs at hrun
    cases hrun
    exact hs
  | b2 => cases hrun; cases s.cfg.role <;> exact ⟨rfl, rfl⟩
  | b4 | b5 => cases hrun; exact hs

end

/-! ### The invariant of a step -/

theorem holdsAtn_of_rank {f : Frame} (h : 2 < f.rank) : f.holdsAtn = false := by
  cases f with
  | sendCommand b l => exact absurd h (Nat.lt_irrefl 2)
  | _ => rfl

theorem runLine_controlLinesOk {f : Frame} {rest : List Frame} {s t : State} (hpc : s.pc = f :: rest)
    (hn : nested s.pc = true) (hs : s.controlLinesOk) (hrun : runLine f rest s = .next t) : t.controlLinesOk := by
  have hat : (s.goto (f :: rest)).controlLinesOk := by
    rw [State.controlLinesOk, hpc] at hs
    exact hs
  rw [hpc] at hn
  cases f with
  | boot l => cases nested_alone hn rfl; exact bootLine_controlLinesOk hat hrun
  | sendIfc l => cases nested_alone hn rfl; cases hrun; exact sendIfcLine_controlLinesOk hat
  | setRole new l => cases nested_alone hn rfl; cases hrun; exact setRoleLine_controlLinesOk hat
  | sendCommand b l =>
    cases hrun
    have hcallers : rest.any Frame.holdsAtn = false :=
      List.any_eq_false.mpr fun g hg => by simp [holdsAtn_of_rank (nested_rank hn g hg)]
    exact sendCommandLine_controlLinesOk hcallers hat
  | wait c l => cases hrun; exact (waitLine_leavesControl rest s c l).controlLinesOk hat
  | sendByte v e l => cases hrun; exact (sendByteLine_leavesControl rest s v e l).controlLinesOk hat
  | receiveByte l => cases hrun; exact (receiveByteLine_leavesControl rest s l).controlLinesOk hat
  | sendData todo e =>
    cases hrun; exact (LeavesControl.of_movesOnly (sendDataLine_movesOnly rest s todo e)).controlLinesOk hat
  | receiveMessage m c l =>
    cases hrun; exact (LeavesControl.of_movesOnly (receiveMessageLine_movesOnly rest s m c l)).controlLinesOk hat
  | addressingSetup todo =>
    cases hrun; exact (LeavesControl.of_movesOnly (addressingSetupLine_movesOnly rest s todo)).controlLinesOk hat
  | readStatusByte p a u l =>
    cases hrun; exact (LeavesControl.of_movesOnly (readStatusByteLine_movesOnly rest s p a u l)).controlLinesOk hat
  | groupTrigger todo first l =>
    cases hrun; exact (LeavesControl.of_movesOnly (groupTriggerLine_movesOnly rest s todo first l)).controlLinesOk hat
  | devClear l => cases hrun; exact (devClearLine_leavesControl rest s l).controlLinesOk hat
  | deviceCycle l => cases hrun; exact (deviceCycleLine_leavesControl rest s l).controlLinesOk hat
  | listenOnlyCycle l => cases hrun; exact (listenOnlyLine_leavesControl rest s l).controlLinesOk hat
  | mainCycle l => cases hrun; exact (LeavesControl.of_movesOnly (mainCycleLine_movesOnly rest s l)).controlLinesOk hat
  | setListenOnly on l => cases hrun; exact (setListenOnlyLine_leavesControl rest s on l).controlLinesOk hat

/-- The first line of a request, on an idle block. -/
theorem request_controlLinesOk {i : Instr} (hk : i.kind = .request) {s t : State} (hpc : s.pc = [])
    (hs : s.controlLinesOk) (hexec : exec i s = .next t) : t.controlLinesOk := by
  have hidle : (s.goto []).controlLinesOk := by
    rw [State.controlLinesOk, hpc] at hs
    exact hs
  have taken {u : State} (ha : s.accept u = .next t) (hu : LeavesControl [] s u) : t.controlLinesOk := by
    obtain ⟨-, rfl⟩ := State.accept_next ha
    exact hu.controlLinesOk hidle
  cases i with
  | sendByte v e => exact taken hexec (sendByteLine_leavesControl [] s v e .s1)
  | receiveByte => exact taken hexec (receiveByteLine_leavesControl [] s .r1)
  | sendCommand b =>
    obtain ⟨-, rfl⟩ := State.accept_next hexec
    exact sendCommandLine_controlLinesOk rfl hidle
  | sendData buffer e => exact taken hexec (.of_movesOnly (enterSendData_movesOnly [] s buffer e))
  | receiveMessage m c => exact taken hexec {}
  | addressingSetup p a u d => exact taken hexec (.of_movesOnly (enterAddressingSetup_movesOnly [] s p a u d))
  | readStatusByte p a u => exact taken hexec (.of_movesOnly (enterReadStatusByte_movesOnly [] s p a u))
  | sendIfc =>
    obtain ⟨-, rfl⟩ := State.accept_next hexec
    exact sendIfcLine_controlLinesOk hidle
  | sendGroupTrigger list => exact taken hexec (.of_movesOnly (enterGroupTrigger_movesOnly [] s list))
  | deviceCycle => exact taken hexec (deviceCycleLine_leavesControl [] s .v1)
  | listenOnlyCycle => exact taken hexec (listenOnlyLine_leavesControl [] s .l1)
  | mainCycle => exact taken hexec (.of_movesOnly (mainCycleLine_movesOnly [] s .k1))
  | popRecord | setStatus v | setRole r | setListenOnly on => exact taken hexec {}
  | setSrq on | setConfig w => exact taken hexec (.ite {} {})
  | _ => cases hk

/-- An event drives nothing of the block's, but for `RESET`, which releases every line (R340). -/
theorem event_controlLinesOk {i : Instr} (hk : i.kind = .event) {s t : State} (hs : s.controlLinesOk)
    (hexec : exec i s = .next t) : t.controlLinesOk := by
  cases i with
  | rxBurst bs => rw [exec_rxBurst_next hexec]; exact hs
  | tick =>
    cases hexec
    unfold onTick
    split <;> exact hs
  | busDrive d => cases hexec; exact hs
  | reset => cases hexec; exact ⟨rfl, rfl⟩
  | _ => cases hk

end Sys2Proof.Machine

section
open Sys2Proof Sys2Proof.Machine

/-- Settles O55: a line, a request or an event keeps both lines to their brackets, on the state with the schedule
advanced. -/
theorem atnAndIfcBrackets : Obligations.AtnAndIfcBrackets := by
  intro s t hn hs hstep
  obtain ⟨q, p, rfl, hmove⟩ := step_moves hstep
  have hp : State.controlLinesOk { s with inbox := q } := hs
  obtain ⟨f, rest, hpc, hrun⟩ | ⟨hpc, hrun⟩ | ⟨i, hk, hpc, hexec⟩ | ⟨i, hk, -, hexec⟩ := hmove
  · exact runLine_controlLinesOk hpc hn hp hrun
  · exact request_controlLinesOk (i := .mainCycle) rfl hpc hp hrun
  · exact request_controlLinesOk hk hpc hp hexec
  · exact event_controlLinesOk hk hp hexec

end

end

section
/-!
PROOFS. The controller operations (R200 to R212) in Controller role.  Each is a loop of `SEND_COMMAND`s that come back
with `Ok()` to a state that can send the next one, so each loop is an induction over what it still has to do: command
bytes for a setup and for a serial poll, list entries for a group trigger.
-/

namespace Sys2Proof.Machine

/-! ### Addresses and command sequences -/

theorem addressOk_iff {pad sad : Byte} {useSad : Bool} : addressOk pad sad useSad = true ↔
    1 ≤ pad.toNat ∧ pad.toNat ≤ 30 ∧ (useSad = true → sad.toNat ≤ 30) := by
  cases useSad <;> simp [addressOk, and_assoc]

theorem addressOk_false {pad sad : Byte} {useSad : Bool}
    (h : pad.toNat < 1 ∨ 30 < pad.toNat ∨ (useSad = true ∧ 30 < sad.toNat)) : addressOk pad sad useSad = false := by
  rw [Bool.eq_false_iff, Ne, addressOk_iff]
  rintro ⟨hlow, hhigh, hsad⟩
  obtain h | h | ⟨hused, h⟩ := h
  · omega
  · omega
  · exact Nat.not_lt_of_le (hsad hused) h

/-- In Controller role an illegal address is what the checks find (R201, R303). -/
theorem setupError_illegal {s : State} {pad sad : Byte} {useSad : Bool} (hc : s.isController = true)
    (h : addressOk pad sad useSad = false) : s.setupError pad sad useSad = some .invalidAddress := by
  rw [State.setupError, hc, h]
  rfl

theorem enterAddressingSetup_illegal {s : State} {pad sad : Byte} {useSad : Bool} (d : Direction) (rest : List Frame)
    (hc : s.isController = true) (h : addressOk pad sad useSad = false) :
    enterAddressingSetup pad sad useSad d rest s = s.finish (.err .invalidAddress) rest := by
  rw [enterAddressingSetup, setupError_illegal hc h]
  rfl

theorem enterAddressingSetup_legal {s : State} {pad sad : Byte} {useSad : Bool} (d : Direction) (rest : List Frame)
    (hc : s.isController = true) (h : addressOk pad sad useSad = true) :
    enterAddressingSetup pad sad useSad d rest s = addressingLoop (setupBytes pad sad useSad d) rest s := by
  rw [enterAddressingSetup, setupError_none.mpr ⟨hc, h⟩]

theorem enterReadStatusByte_illegal {s : State} {pad sad : Byte} {useSad : Bool} (rest : List Frame)
    (hc : s.isController = true) (h : addressOk pad sad useSad = false) :
    enterReadStatusByte pad sad useSad rest s = s.finish (.err .invalidAddress) rest := by
  rw [enterReadStatusByte, setupError_illegal hc h]
  rfl

theorem enterReadStatusByte_legal {s : State} {pad sad : Byte} {useSad : Bool} (rest : List Frame)
    (hc : s.isController = true) (h : addressOk pad sad useSad = true) :
    enterReadStatusByte pad sad useSad rest s =
      readStatusLoop pad sad useSad (pollBytes pad sad useSad) rest s := by
  rw [enterReadStatusByte, setupError_none.mpr ⟨hc, h⟩]

theorem talkedCommands_append (as bs : List Byte) :
    talkedCommands (as ++ bs) = talkedCommands as ++ talkedCommands bs := List.map_append

/-! ### Commands with nobody else on the bus (R200, R202, R203) -/

/-- What a `SEND_COMMAND` leaves whose byte was sent without a tick: ATN is released (R181). -/
def State.afterCommand (s : State) : State := { s.afterSend with drv.atn := false }

/-- The state at `f`, whose `SEND_COMMAND` has come back with `Ok()`. -/
def State.commandSent (s : State) (f : Frame) (rest : List Frame) : State :=
  { s.afterCommand with pc := f :: rest, ret := .ok }

section
variable {s : State} {rest : List Frame} (hrel : s.talkerReleased) (hs : s.silent) (hc : s.isController = true)
include hrel hs hc

/-- A `SEND_COMMAND` called with nobody else on the bus returns `Ok()`. -/
theorem reaches_called_sendCommand (b : Byte) :
    Reaches (s.goto (.sendCommand b .c1 :: rest)) (s.afterCommand.finish .ok rest) (talkedCommands [b]) := by
  have hcall : Reaches (s.goto (.sendCommand b .c1 :: rest)) (sendCommandLine b .c1 rest s) [] :=
    reaches_own hs.2 rfl rfl (by rw [sendCommandLine, if_pos hc]; exact id)
  exact hcall.trans (reaches_sendCommand_silent hrel hs b hc)

theorem reaches_addressingLoop (todo : List Byte) :
    Reaches (addressingLoop todo rest s) ((if todo = [] then s else s.afterCommand).finish .ok rest)
      (talkedCommands todo) := by
  induction todo generalizing s with
  | nil => exact .refl _
  | cons b bs ih =>
    have hsent := reaches_called_sendCommand (rest := .addressingSetup bs :: rest) hrel hs hc b
    have hloop := hsent.trans (reaches_own hs.2 rfl rfl (by rw [(addressingSetupLine_movesOnly ..).drv]; exact id))
    have hrest := hloop.trans (ih ⟨rfl, rfl, rfl⟩ hs hc)
    rw [if_neg (List.cons_ne_nil b bs)]
    refine hrest.congr ?_
    split <;> exact State.finish_congr rfl

theorem reaches_setup (pad sad : Byte) (useSad : Bool) (d : Direction) :
    Reaches (addressingLoop (setupBytes pad sad useSad d) rest s) (s.afterCommand.finish .ok rest)
      (talkedCommands (setupBytes pad sad useSad d)) := by
  have hloop := reaches_addressingLoop (rest := rest) hrel hs hc (setupBytes pad sad useSad d)
  obtain ⟨b, bs, hcons⟩ := setupBytes_cons pad sad useSad d
  rwa [if_neg (by rw [hcons]; exact List.cons_ne_nil b bs)] at hloop

end

/-! ### Group trigger (R210, R211) -/

/-- The entry's address is in range (R201). -/
def addressLegal (x : Target) : Bool := addressOk x.pad x.sad x.useSad

/-- What the bus carries for an entry with a legal address: its SEND SETUP, and `GET` (R211). -/
def triggerBytes (x : Target) : List Byte := setupBytes x.pad x.sad x.useSad .send ++ [Cmd.get.byte]

/-- The first error of a list whose bus traffic succeeds: only addresses can fail (R210). -/
def addressErrors (list : List Target) (first : Option ErrKind) : Option ErrKind :=
  if list.all addressLegal then first else firstError first .invalidAddress

theorem firstError_firstError (first : Option ErrKind) (e : ErrKind) :
    firstError (firstError first e) e = firstError first e := by
  cases first <;> rfl

theorem addressErrors_cons_legal {x : Target} (xs : List Target) (first : Option ErrKind) (h : addressLegal x = true) :
    addressErrors (x :: xs) first = addressErrors xs first := by
  rw [addressErrors, List.all_cons, h, Bool.true_and, addressErrors]

theorem addressErrors_cons_illegal {x : Target} (xs : List Target) (first : Option ErrKind)
    (h : addressLegal x = false) :
    addressErrors (x :: xs) first = addressErrors xs (firstError first .invalidAddress) := by
  rw [addressErrors, List.all_cons, h, Bool.false_and, addressErrors, firstError_firstError, ite_self]
  rfl

theorem groupResult_addressErrors (list : List Target) :
    groupResult (addressErrors list none) = if list.filter addressLegal = list then .ok else .err .invalidAddress := by
  rw [addressErrors]
  simp only [List.filter_eq_self, ← List.all_eq_true]
  split <;> rfl

section
variable {s : State} {rest : List Frame}

/-- An entry with an illegal address is recorded and left. -/
theorem groupTriggerLoop_illegal {x : Target} (xs : List Target) (first : Option ErrKind)
    (hc : s.isController = true) (h : addressLegal x = false) :
    groupTriggerLoop (x :: xs) first rest s = groupTriggerLoop xs (firstError first .invalidAddress) rest s := by
  rw [groupTriggerLoop, setupError_illegal hc h]

/-- An entry with a legal address is addressed. -/
theorem groupTriggerLoop_legal {x : Target} (xs : List Target) (first : Option ErrKind)
    (hc : s.isController = true) (h : addressLegal x = true) :
    groupTriggerLoop (x :: xs) first rest s =
      addressingLoop (setupBytes x.pad x.sad x.useSad .send) (.groupTrigger xs first .addressing :: rest) s := by
  rw [groupTriggerLoop, setupError_none.mpr ⟨hc, h⟩]

variable (hrel : s.talkerReleased) (hs : s.silent) (hc : s.isController = true)
include hrel hs hc

/-- An entry with a legal address is addressed and triggered, and the list goes on. -/
theorem reaches_groupEntry {x : Target} (xs : List Target) (first : Option ErrKind) (h : addressLegal x = true) :
    Reaches (groupTriggerLoop (x :: xs) first rest s)
      (groupTriggerLoop xs first rest (s.commandSent (.groupTrigger xs first .trigger) rest))
      (talkedCommands (triggerBytes x)) := by
  rw [groupTriggerLoop_legal xs first hc h, triggerBytes, talkedCommands_append]
  have haddressed := reaches_setup (rest := .groupTrigger xs first .addressing :: rest) hrel hs hc x.pad x.sad x.useSad
    .send
  have hcall : Reaches (s.afterCommand.finish .ok (.groupTrigger xs first .addressing :: rest))
      ({ s.afterCommand with ret := .ok }.goto (.sendCommand Cmd.get.byte .c1 :: .groupTrigger xs first .trigger ::
        rest)) [] :=
    reaches_own hs.2 rfl rfl id
  have htriggered := hcall.trans (reaches_called_sendCommand (s := { s.afterCommand with ret := .ok }) ⟨rfl, rfl, rfl⟩
    hs hc Cmd.get.byte)
  have hnext := htriggered.trans
    (reaches_own hs.2 rfl rfl (by rw [(groupTriggerLine_movesOnly ..).drv]; exact id))
  exact haddressed.trans hnext

/-- The list runs to its end (R210). -/
theorem reaches_groupTriggerLoop (list : List Target) (first : Option ErrKind) :
    Reaches (groupTriggerLoop list first rest s)
      ((if list.filter addressLegal = [] then s else s.afterCommand).finish (groupResult (addressErrors list first))
        rest)
      (talkedCommands ((list.filter addressLegal).flatMap triggerBytes)) := by
  induction list generalizing s first with
  | nil => exact .refl _
  | cons x xs ih =>
    cases h : addressLegal x with
    | false =>
      rw [groupTriggerLoop_illegal xs first hc h, addressErrors_cons_illegal xs first h,
        List.filter_cons_of_neg (by rw [h]; exact Bool.false_ne_true)]
      exact ih hrel hs hc _
    | true =>
      have hentry := reaches_groupEntry (rest := rest) hrel hs hc xs first h
      have hlist := hentry.trans (ih (s := s.commandSent _ rest) ⟨rfl, rfl, rfl⟩ hs hc first)
      rw [addressErrors_cons_legal xs first h, List.filter_cons_of_pos h, List.flatMap_cons, talkedCommands_append,
        if_neg (List.cons_ne_nil x _)]
      refine hlist.congr ?_
      split <;> exact State.finish_congr rfl

end

/-! ### Commands under a schedule of `pass`es, and the serial poll (R204) -/

section
variable {s : State} {rest : List Frame} {q : List Item} {pad sad : Byte} {useSad : Bool}

/-- A `SEND_BYTE` with no other driver needs 14 steps after its first line. -/
theorem reaches_sendByte_passes (v : Byte) (e : Bool) (hrel : s.talkerReleased) (hrem : s.rem = Drives.released)
    (hin : s.inbox = passes 14 ++ q) :
    Reaches (sendByteLine v e .s1 rest s) ({ s with inbox := q }.afterSend.finish .ok rest) [⟨v, e, s.drv.atn⟩] := by
  have hbyte := reaches_sendByte_ready (v := v) (e := e) (rest := rest) (q := passes 4 ++ q) hrel
    (by rw [hrem]; rfl) hin
  have hfree : WaitCond.ndacReleased.holds (s.talkConfig.drv.wiredOr s.rem) = true := by rw [hrem]; rfl
  have hmet := hbyte.trans (reaches_poll_met (q := passes 3 ++ q) rfl rfl hfree)
  have hs9 := hmet.trans (reaches_sendByte_s9 (q := passes 1 ++ q) rfl rfl rfl)
  exact hs9.trans (reaches_sendByte_end rfl rfl)

/-- A `SEND_COMMAND` called with no other driver needs 18 steps. -/
theorem reaches_sendCommand_passes (b : Byte) (hrel : s.talkerReleased) (hrem : s.rem = Drives.released)
    (hc : s.isController = true) (hin : s.inbox = passes 18 ++ q) :
    Reaches (s.goto (.sendCommand b .c1 :: rest)) ({ s with inbox := q }.afterCommand.finish .ok rest)
      (talkedCommands [b]) := by
  have hc2 : Reaches (s.goto (.sendCommand b .c1 :: rest))
      ({ s with inbox := passes 17 ++ q, drv.atn := true }.goto
        (.sendByte b false .s1 :: .sendCommand b .c3 :: rest)) [] :=
    reaches_line rfl hin (congrArg Host.Outcome.next (if_pos hc)) id
  have hs1 := hc2.trans (reaches_line (q := passes 16 ++ q) rfl rfl rfl id)
  have hsent := hs1.trans (reaches_sendByte_passes (s := { s with inbox := passes 16 ++ q, drv.atn := true })
    (rest := .sendCommand b .c3 :: rest) (q := passes 2 ++ q) b false hrel hrem rfl)
  have hc3 := hsent.trans (reaches_line (q := passes 1 ++ q) rfl rfl rfl id)
  have hc4 := hc3.trans (reaches_finish (r := .ok) (rest := rest) rfl rfl id)
  exact hc4.congr (State.finish_congr rfl)

/-- A command of the poll is sent, and the poll's line `l` runs: 19 steps. -/
theorem reaches_pollCommand (b : Byte) (l : ReadStatusLine) (hrel : s.talkerReleased) (hrem : s.rem = Drives.released)
    (hc : s.isController = true) (hin : s.inbox = passes 19 ++ q) :
    Reaches (readStatusSend pad sad useSad b l rest s)
      (readStatusByteLine pad sad useSad l rest
        ({ s with inbox := q }.commandSent (.readStatusByte pad sad useSad l) rest))
      (talkedCommands [b]) := by
  have hsent := reaches_sendCommand_passes (rest := .readStatusByte pad sad useSad l :: rest) (q := passes 1 ++ q) b
    hrel hrem hc hin
  exact hsent.trans (reaches_line rfl rfl rfl (by rw [(readStatusByteLine_movesOnly ..).drv]; exact id))

/-- The commands of the poll up to the call of line `p4`. -/
theorem reaches_readStatusLoop (b : Byte) (bs : List Byte) (hrel : s.talkerReleased) (hrem : s.rem = Drives.released)
    (hc : s.isController = true) (hin : s.inbox = passes (19 * (b :: bs).length) ++ q) :
    Reaches (readStatusLoop pad sad useSad (b :: bs) rest s)
      (readStatusLoop pad sad useSad [] rest
        ({ s with inbox := q }.commandSent (.readStatusByte pad sad useSad (.p3 [])) rest))
      (talkedCommands (b :: bs)) := by
  induction bs generalizing s b with
  | nil => exact reaches_pollCommand b (.p3 []) hrel hrem hc hin
  | cons b' bs ih =>
    have hsched : s.inbox = passes 19 ++ (passes (19 * (b' :: bs).length) ++ q) := by
      rw [hin, List.length_cons, Nat.mul_succ, Nat.add_comm, passes, List.replicate_add, List.append_assoc]
      rfl
    have hsent := reaches_pollCommand (pad := pad) (sad := sad) (useSad := useSad) (rest := rest) b (.p3 (b' :: bs))
      hrel hrem hc hsched
    exact hsent.trans (ih b' ⟨rfl, rfl, rfl⟩ hrem hc rfl)

/-- The talker's byte is read at line `p4`, and line `p5` is entered. -/
theorem reaches_pollByte {sb : Byte} {eoi : Bool} (hn : s.noTalker) (hin : s.inbox = talkerByte sb eoi 5 ++ q) :
    Reaches (readStatusLoop pad sad useSad [] rest s)
      (readStatusSend pad sad useSad Cmd.spd.byte (.p5 sb) rest
        { { s with inbox := q }.afterReceive sb eoi with ret := .okByteEoi sb eoi })
      [] := by
  have hr1 : Reaches (readStatusLoop pad sad useSad [] rest s)
      (receiveByteLine .r1 (.readStatusByte pad sad useSad .p4 :: rest)
        { s with inbox := (talkerByte sb eoi 4).tail ++ (passes 1 ++ q) }) [] :=
    reaches_line rfl hin rfl nofun
  have hread := hr1.trans (reaches_receiveByte_talker (q := passes 1 ++ q) hn rfl)
  exact hread.trans (reaches_line rfl rfl rfl id)

/-- The poll from its byte to its end: `SPD`, `UNT`, and the byte is the result. -/
theorem reaches_pollEnd (sb : Byte) (hrel : s.talkerReleased) (hrem : s.rem = Drives.released)
    (hc : s.isController = true) (hin : s.inbox = passes 38 ++ q) :
    Reaches (readStatusSend pad sad useSad Cmd.spd.byte (.p5 sb) rest s)
      ({ s with inbox := q }.afterCommand.finish (.okByte sb) rest)
      (talkedCommands [Cmd.spd.byte, Cmd.unt.byte]) := by
  have hspd := reaches_pollCommand (pad := pad) (sad := sad) (useSad := useSad) (rest := rest) (q := passes 19 ++ q)
    Cmd.spd.byte (.p5 sb) hrel hrem hc hin
  have hunt := hspd.trans (reaches_pollCommand Cmd.unt.byte (.p6 sb) ⟨rfl, rfl, rfl⟩ hrem hc rfl)
  exact hunt.congr (State.finish_congr rfl)

/-- The whole poll, from the head of line `p3`'s loop. -/
theorem reaches_poll {sb : Byte} {eoi : Bool} (b : Byte) (bs : List Byte) (hrel : s.talkerReleased)
    (hrem : s.rem = Drives.released) (hc : s.isController = true)
    (hin : s.inbox = passes (19 * (b :: bs).length) ++ (talkerByte sb eoi 43 ++ q)) :
    Reaches (readStatusLoop pad sad useSad (b :: bs) rest s)
      (({ s with inbox := q }.afterReceive sb eoi).afterCommand.finish (.okByte sb) rest)
      (talkedCommands ((b :: bs) ++ [Cmd.spd.byte, Cmd.unt.byte])) := by
  have hn : s.noTalker := by rw [State.noTalker, hrem]; exact ⟨rfl, rfl, rfl⟩
  have hsent := reaches_readStatusLoop (pad := pad) (sad := sad) (useSad := useSad) (rest := rest) b bs hrel hrem hc hin
  have hread := hsent.trans (reaches_pollByte (q := passes 38 ++ q) hn rfl)
  have hend := hread.trans (reaches_pollEnd sb ⟨rfl, rfl, rfl⟩ hrem hc rfl)
  rw [List.append_nil, ← talkedCommands_append] at hend
  exact hend.congr (State.finish_congr rfl)

end

end Sys2Proof.Machine

section
open Sys2Proof Sys2Proof.Machine

/-- Settles O31: the checks pass, and the loop sends the setup's commands. -/
theorem addressingSetupCompletes : Obligations.AddressingSetupCompletes := by
  intro s pad sad useSad d hpc htalk hs hrole hlow hhigh hsad
  have hc : s.isController = true := decide_eq_true hrole
  obtain ⟨k, hk⟩ := reaches_setup (rest := []) (htalk.released_of_idle hpc) hs hc pad sad useSad d
  rw [← enterAddressingSetup_legal d [] hc (addressOk_iff.mpr ⟨hlow, hhigh, hsad⟩)] at hk
  refine ⟨_, k, State.accept_idle _ hpc, ?_⟩
  cases d <;> exact hk

/-- Settles O32: the poll's commands, the talker's byte, and the commands that end the poll. -/
theorem readStatusByteCompletes : Obligations.ReadStatusByteCompletes := by
  intro s pad sad useSad sb eoi q hpc htalk hrem hrole hlow hhigh hsad seq hin
  have hc : s.isController = true := decide_eq_true hrole
  rw [List.append_assoc] at hin
  obtain ⟨k, hk⟩ := reaches_poll (rest := []) (pad := pad) (sad := sad) (useSad := useSad) _ _
    (htalk.released_of_idle hpc) hrem hc hin
  refine ⟨_, k, State.accept_idle _ hpc, ?_⟩
  rw [enterReadStatusByte_legal [] hc (addressOk_iff.mpr ⟨hlow, hhigh, hsad⟩)]
  exact hk

/-- Settles O34: the loop of `SEND_GROUP_TRIGGER`, entered with no error. -/
theorem groupTriggerCompletes : Obligations.GroupTriggerCompletes := by
  intro s list hpc htalk hs hrole good
  have hc : s.isController = true := decide_eq_true hrole
  have hgood : list.filter addressLegal = good :=
    List.filter_congr fun x _ => Bool.eq_iff_iff.mpr (addressOk_iff.trans decide_eq_true_iff.symm)
  obtain ⟨k, hk⟩ := reaches_groupTriggerLoop (rest := []) (htalk.released_of_idle hpc) hs hc list none
  rw [groupResult_addressErrors, hgood] at hk
  exact ⟨_, k, (State.accept_idle _ hpc).trans (congrArg Host.Outcome.next (if_pos hc)), hk⟩

/-- Settles O30: the checks of both operations fail on the address before anything is sent. -/
theorem invalidAddressNoTraffic : Obligations.InvalidAddressNoTraffic := by
  intro s pad sad useSad hpc hrole hbad
  have hc : s.isController = true := decide_eq_true hrole
  have hill := addressOk_false hbad
  exact ⟨fun d => (State.accept_idle _ hpc).trans (congrArg _ (enterAddressingSetup_illegal d [] hc hill)),
    (State.accept_idle _ hpc).trans (congrArg _ (enterReadStatusByte_illegal [] hc hill))⟩

/-- Settles O33: lines `i2`, `i3` and `i4` are one step each. -/
theorem sendIfcCompletes : Obligations.SendIfcCompletes := by
  intro s hpc hin hrole
  have hassert : sendIfcLine .i1 [] s = { s with drv.ifc := true, pc := [.sendIfc .i3] } :=
    if_pos (decide_eq_true hrole)
  have hdelay := runs_succ (s := { s with drv.ifc := true, pc := [.sendIfc .i3] }) (step_nil hin) (runs_zero _)
  have hrelease := runs_succ (s := { s with drv.ifc := true, pc := [.sendIfc .i4] }) (step_nil hin) (runs_zero _)
  exact ⟨(State.accept_idle _ hpc).trans (congrArg _ hassert), hdelay, runs_add hdelay hrelease⟩

end

end

section
/-!
PROOFS. The command decoder (R221).  What reaches the groups is a byte below 0x80, and there each class decodes as the
round trip of `Cmd.byte` says: the address groups, the codes with a name, and the rest.
-/

namespace Sys2Proof

/-- A decoder that does not mask DIO8 names no byte that has it. -/
theorem decodeCommand_unmasked_high {b : Byte} (hb : 0x80 ≤ b.toNat) : decodeCommand false b = .other b := by
  rw [decodeCommand, getLsbD_seven, decide_eq_true hb]; rfl

/-- Past that, only the low seven bits count. -/
theorem decodeCommand_congr {m m' : Bool} {b b' : Byte} (h : (!m && b.getLsbD 7) = false)
    (h' : (!m' && b'.getLsbD 7) = false) (hlow : b &&& 0x7F#8 = b' &&& 0x7F#8) :
    decodeCommand m b = decodeCommand m' b' := by
  rw [decodeCommand, decodeCommand, h, h', hlow]; rfl

theorem decodeCommand_eq_low_bits {mask : Bool} {b : Byte} (h : mask = true ∨ b.toNat < 0x80) :
    decodeCommand mask b = decodeCommand true (b &&& 0x7F#8) := by
  refine decodeCommand_congr ?_ rfl (by rw [BitVec.and_assoc, BitVec.and_self])
  obtain rfl | hb := h
  · rfl
  · rw [getLsbD_seven, decide_eq_false (Nat.not_le_of_lt hb), Bool.and_false]

theorem toNat_low_bits_lt (b : Byte) : (b &&& 0x7F#8).toNat < 0x80 := by
  rw [BitVec.toNat_and]
  exact Nat.lt_succ_of_le Nat.and_le_right

/-- One case of a table written as a chain of `if`s.  (`split` walks the whole rest of the chain at each case.) -/
theorem eq_ite_of {α : Type} {p : Prop} [Decidable p] {x a b : α} (hpos : p → x = a) (hneg : ¬ p → x = b) :
    x = if p then a else b :=
  iteInduction (motive := (x = ·)) hpos hneg

section
variable {c : Byte}

/-- The codes of an address group are its base with a five-bit address up to 30 added. -/
theorem decodeCommand_addressGroup (base : Byte) {cmd : Byte → Cmd}
    (hround : ∀ {a}, addressField a = true → decodeCommand true (base + a) = cmd a)
    (hlow : base.toNat ≤ c.toNat) (hhigh : c.toNat ≤ base.toNat + 30) : decodeCommand true c = cmd (c - base) := by
  have ha : addressField (c - base) = true := decide_eq_true (by bv_omega)
  rw [← hround ha, add_sub_cancel]

/-- A code with one fixed meaning, known by its number. -/
theorem decodeCommand_of_toNat {n : Nat} {cmd : Cmd} (hc : c.toNat = n)
    (h : decodeCommand true (BitVec.ofNat 8 n) = cmd) : decodeCommand true c = cmd := by
  rwa [← hc, BitVec.ofNat_toNat, BitVec.setWidth_eq] at h

/-- The unnamed values, by number. -/
theorem unnamedCommand_iff : unnamedCommand c = true ↔
    0x80 ≤ c.toNat ∨
    (c.toNat < 0x20 ∧ c.toNat ≠ 0x01 ∧ c.toNat ≠ 0x04 ∧ c.toNat ≠ 0x08 ∧ c.toNat ≠ 0x11 ∧ c.toNat ≠ 0x14 ∧
      c.toNat ≠ 0x18 ∧ c.toNat ≠ 0x19) ∨
    c.toNat = 0x7F := by
  simp [unnamedCommand, namedGroup0, BitVec.toNat_eq, and_assoc, or_assoc]

/-- The seven-bit bytes with no name of their own, for the decoder that masks DIO8 (R93). -/
theorem decodeCommand_unnamed (hc : c.toNat < 0x80) (hun : unnamedCommand c = true) :
    decodeCommand true c = .other c := by
  have h := decodeCommand_other hun
  rwa [getLsbD_seven, decide_eq_false (Nat.not_le_of_lt hc)] at h

end

end Sys2Proof

section
open Sys2Proof Sys2Proof.Machine

/-- Settles O4: bit 7 is dealt with first, and then the seven-bit byte is in one of the classes of R221. -/
theorem commandByteDecoding : Obligations.CommandByteDecoding := by
  intro mask b
  refine ⟨fun hmask hb => hmask ▸ decodeCommand_unmasked_high hb, fun h => ?_⟩
  have hc := toNat_low_bits_lt b
  rw [decodeCommand_eq_low_bits h]
  generalize b &&& 0x7F#8 = c at hc ⊢
  dsimp only
  exact eq_ite_of (decodeCommand_of_toNat · rfl) fun hunl =>
    eq_ite_of (decodeCommand_of_toNat · rfl) fun hunt =>
    eq_ite_of (fun ⟨hlow, hhigh⟩ => decodeCommand_addressGroup 0x20#8 decodeCommand_mla hlow hhigh) fun hmla =>
    eq_ite_of (fun ⟨hlow, hhigh⟩ => decodeCommand_addressGroup 0x40#8 decodeCommand_mta hlow hhigh) fun hmta =>
    eq_ite_of (fun ⟨hlow, hhigh⟩ => decodeCommand_addressGroup 0x60#8 decodeCommand_msa hlow hhigh) fun hmsa =>
    eq_ite_of (decodeCommand_of_toNat · rfl) fun hgtl =>
    eq_ite_of (decodeCommand_of_toNat · rfl) fun hsdc =>
    eq_ite_of (decodeCommand_of_toNat · rfl) fun hget =>
    eq_ite_of (decodeCommand_of_toNat · rfl) fun hllo =>
    eq_ite_of (decodeCommand_of_toNat · rfl) fun hdcl =>
    eq_ite_of (decodeCommand_of_toNat · rfl) fun hspe =>
    eq_ite_of (decodeCommand_of_toNat · rfl) fun hspd =>
    decodeCommand_unnamed hc (unnamedCommand_iff.mpr (by omega))

end

end

section
/-!
PROOFS. The device state (R38 to R42).  `apply` of a command is what the rules write out for it (R242 to R248), and
`dev_clear()` runs to its end.  Few lines write the device state, and none of them leaves `listening` and `talking` both
set (R253).
-/

namespace Sys2Proof.Machine

/-! ### Who writes the device state -/

/-- The lines that write the device state: those of `dev_clear()` and `ifc_reset()` (R245, R251), a decoded command
(R241), the end of a poll reply (R249), and the lines of `SET_ROLE` and `SET_LISTEN_ONLY` that clear it (R255, R257). -/
def Frame.writesDevice : Frame → Bool
  | .devClear _ => true
  | .deviceCycle l => decide (l = .v2Ret) || decide (l = .v3Ret) || decide (l = .v3Disarm)
  | .setRole _ l => decide (l = .t2)
  | .setListenOnly _ l => decide (l = .n2)
  | _ => false

section
variable (rest : List Frame) (s : State)

@[simp] theorem sendDataLoop_dev (todo : List Byte) (e : Bool) : (sendDataLoop todo e rest s).dev = s.dev := by
  cases todo <;> simp [sendDataLoop]

@[simp] theorem addressingLoop_dev (todo : List Byte) : (addressingLoop todo rest s).dev = s.dev := by
  cases todo <;> simp [addressingLoop]

@[simp] theorem readStatusLoop_dev (pad sad : Byte) (u : Bool) (todo : List Byte) :
    (readStatusLoop pad sad u todo rest s).dev = s.dev := by
  cases todo <;> rfl

theorem readStatusByteLine_dev (pad sad : Byte) (u : Bool) (l : ReadStatusLine) :
    (readStatusByteLine pad sad u l rest s).dev = s.dev := by
  unfold readStatusByteLine
  split
  · simp
  · cases l with
    | p3 todo => exact readStatusLoop_dev rest s pad sad u todo
    | p4 => dsimp only; split <;> simp [readStatusSend]
    | p5 sb => rfl
    | p6 sb => simp

@[simp] theorem groupTriggerLoop_dev (todo : List Target) (first : Option ErrKind) :
    (groupTriggerLoop todo first rest s).dev = s.dev := by
  obtain ⟨f, h⟩ | ⟨x, ts, f, b, bs, -, -, -, h⟩ := groupTriggerLoop_cases todo first rest s <;> rw [h]
  · exact State.finish_dev ..
  · rfl

theorem groupTriggerLine_dev (todo : List Target) (first : Option ErrKind) (l : GroupTriggerLine) :
    (groupTriggerLine todo first l rest s).dev = s.dev := by
  unfold groupTriggerLine
  split
  · exact groupTriggerLoop_dev ..
  · cases l with
    | addressing => rfl
    | trigger => exact groupTriggerLoop_dev ..

@[simp] theorem deviceRecordLoop_dev (todo : List Byte) : (deviceRecordLoop todo rest s).dev = s.dev := by
  cases todo <;> rfl

theorem routeRecord_dev (popped : Option Record) : (routeRecord popped rest s).dev = s.dev := by
  cases popped with
  | none => rfl
  | some x => simp [routeRecord, dataRecord, enterSendData, apply_ite State.dev]

theorem mainCycleLine_dev (l : MainCycleLine) : (mainCycleLine l rest s).dev = s.dev := by
  cases l with
  | k1 | k2Ret => rfl
  | k2 popped => exact routeRecord_dev rest s popped
  | k2Byte todo =>
    rw [mainCycleLine, deviceRecordLine]
    split
    · rfl
    · exact deviceRecordLoop_dev rest s todo
  | k3 => simp [mainCycleLine, busProcessing, apply_ite State.dev]
  | k3Ret => exact State.finish_dev ..

theorem receiveMessageLine_dev (m : RecvMode) (c : Byte) (l : ReceiveMessageLine) :
    (receiveMessageLine m c l rest s).dev = s.dev := by
  cases l with
  | m1 => rw [receiveMessageLine]; split <;> rfl
  | m2 b eoi => rw [receiveMessageLine, forwardByte]; split <;> rfl
  | m3 reason => simp [receiveMessageLine, apply_ite State.dev]

end

theorem bootLine_dev {l : BootLine} {s t : State} (h : bootLine l s = .next t) : t.dev = s.dev := by
  cases l with
  | b1 => rw [bootLine] at h; split at h <;> cases h; rfl
  | b2 => cases h; simp
  | b4 | b5 => cases h; rfl

/-- Every other line leaves the device state alone. -/
theorem runLine_dev {f : Frame} {rest : List Frame} {s t : State} (hf : f.writesDevice = false)
    (h : runLine f rest s = .next t) : t.dev = s.dev := by
  cases f with
  | boot l => exact bootLine_dev h
  | wait c l => cases h; cases l <;> simp [waitLine, apply_ite State.dev]
  | sendByte v e l => cases h; cases l <;> simp [sendByteLine, apply_ite State.dev]
  | receiveByte l => cases h; cases l <;> simp [receiveByteLine, apply_ite State.dev]
  | sendCommand b l => cases h; cases l <;> simp [sendCommandLine, apply_ite State.dev]
  | sendData todo e => cases h; unfold sendDataLine; split <;> simp
  | receiveMessage m c l => cases h; exact receiveMessageLine_dev rest s m c l
  | addressingSetup todo => cases h; unfold addressingSetupLine; split <;> simp
  | readStatusByte p a u l => cases h; exact readStatusByteLine_dev rest s p a u l
  | sendIfc l => cases h; cases l <;> simp [sendIfcLine, apply_ite State.dev]
  | groupTrigger todo first l => cases h; exact groupTriggerLine_dev rest s todo first l
  | devClear l => cases hf
  | deviceCycle l =>
    cases h
    cases l with
    | v2Ret | v3Ret | v3Disarm => cases hf
    | _ => simp [deviceCycleLine, enterReceiveMessage, apply_ite State.dev]
  | listenOnlyCycle l => cases h; cases l <;> simp [listenOnlyLine, enterReceiveMessage, apply_ite State.dev]
  | mainCycle l => cases h; exact mainCycleLine_dev rest s l
  | setRole new l =>
    cases h
    cases l with
    | t2 => cases hf
    | t5 => cases new <;> rfl
    | _ => simp [setRoleLine]
  | setListenOnly on l =>
    cases h
    cases l with
    | n2 => cases hf
    | _ => simp [setListenOnlyLine]

/-! ### `listening` and `talking` exclude each other (R253) -/

theorem State.addressedOnce_of_dev {s t : State} (h : s.addressedOnce) (ht : t.dev = s.dev) : t.addressedOnce := by
  rwa [State.addressedOnce, ht]

/-- A command that sets one of the two clears the other, or sets neither (R241 to R245). -/
theorem applyCmd_addressedOnce {s : State} (h : s.addressedOnce) (c : Cmd) : (applyCmd c s).addressedOnce := by
  cases c with
  | mla a => rw [applyCmd, onMla]; split; exacts [nofun, h]
  | mta a => rw [applyCmd, onMta]; split <;> nofun
  | sdc => rw [applyCmd, onSdc]; split; exacts [nofun, h]
  | gtl | get | llo => rw [applyCmd, onHook]; split <;> exact h
  | unl | unt | dcl => nofun
  | spe | spd | msa | other => exact h

theorem applyReceived_addressedOnce {s : State} (h : s.addressedOnce) : (applyReceived s).addressedOnce := by
  obtain he | ⟨c, he⟩ := applyReceived_cases s <;> rw [he]
  · exact h
  · exact applyCmd_addressedOnce h c

theorem runLine_addressedOnce {f : Frame} {rest : List Frame} {s t : State} (hs : s.addressedOnce)
    (h : runLine f rest s = .next t) : t.addressedOnce := by
  by_cases hf : f.writesDevice = true
  · cases f with
    | devClear l =>
      cases h
      cases l with
      | e1 => nofun
      | e2 | e3 => exact hs
    | deviceCycle l =>
      cases h
      cases l with
      | v2Ret => exact applyReceived_addressedOnce (s := s.goto (.deviceCycle .v5 :: rest)) hs
      | v3Ret => exact hs
      | v3Disarm => exact State.addressedOnce_of_dev (s := { s with dev.spArmed := false }) hs (State.finish_dev ..)
      | _ => cases hf
    | setRole new l =>
      cases h
      cases l with
      | t2 => nofun
      | _ => cases hf
    | setListenOnly on l =>
      cases h
      cases l with
      | n2 => nofun
      | _ => cases hf
    | _ => cases hf
  · exact State.addressedOnce_of_dev hs (runLine_dev (Bool.eq_false_iff.mpr hf) h)

/-- A request runs the first line of its operation, or leaves the two flags alone. -/
theorem request_addressedOnce {i : Instr} (hk : i.kind = .request) {s t : State} (hs : s.addressedOnce)
    (h : exec i s = .next t) : t.addressedOnce := by
  have line (f : Frame) {u : State} (ha : s.accept u = .next t) (hu : runLine f [] s = .next u) : t.addressedOnce := by
    obtain ⟨-, rfl⟩ := State.accept_next ha
    exact runLine_addressedOnce hs hu
  have same {u : State} (ha : s.accept u = .next t) (hu : u.dev = s.dev) : t.addressedOnce := by
    obtain ⟨-, rfl⟩ := State.accept_next ha
    exact State.addressedOnce_of_dev hs hu
  cases i with
  | sendByte v e => exact line (.sendByte v e .s1) h rfl
  | receiveByte => exact line (.receiveByte .r1) h rfl
  | sendCommand b => exact line (.sendCommand b .c1) h rfl
  | sendIfc => exact line (.sendIfc .i1) h rfl
  | deviceCycle => exact line (.deviceCycle .v1) h rfl
  | listenOnlyCycle => exact line (.listenOnlyCycle .l1) h rfl
  | mainCycle => exact line (.mainCycle .k1) h rfl
  | sendData buffer e => exact same h (sendDataLoop_dev [] s _ e)
  | addressingSetup p a u d =>
    refine same h ?_
    unfold enterAddressingSetup
    split <;> simp
  | readStatusByte p a u =>
    refine same h ?_
    unfold enterReadStatusByte
    split <;> simp
  | sendGroupTrigger list =>
    refine same h ?_
    simp [enterGroupTrigger, apply_ite State.dev]
  | receiveMessage | popRecord | setRole | setListenOnly => exact same h rfl
  | setStatus v =>
    obtain ⟨-, rfl⟩ := State.accept_next h
    exact hs
  | setSrq on => exact same h (by simp [changeSrq, apply_ite State.dev])
  | setConfig w => exact same h (by simp [changeConfig, apply_ite State.dev])
  | _ => cases hk

/-- An event touches no device flag, but for `RESET`, which clears them (R340). -/
theorem event_addressedOnce {i : Instr} (hk : i.kind = .event) {s t : State} (hs : s.addressedOnce)
    (h : exec i s = .next t) : t.addressedOnce := by
  cases i with
  | rxBurst bs => rw [exec_rxBurst_next h]; exact hs
  | tick => cases h; unfold onTick; split <;> exact hs
  | busDrive d => cases h; exact hs
  | reset => cases h; nofun
  | _ => cases hk

/-! ### `dev_clear()` to its end (R245) -/

/-- Only a `WAIT` is owed a tick. -/
theorem tickDue_of_rank {s : State} {f : Frame} {rest : List Frame} (hpc : s.pc = f :: rest) (hf : 0 < f.rank) :
    s.tickDue = false := by
  rw [Bool.eq_false_iff, Ne, tickDue_iff]
  rintro ⟨c, rest', hw, -⟩
  obtain ⟨rfl, -⟩ := List.cons.inj (hpc.symm.trans hw)
  exact Nat.lt_irrefl 0 hf

/-- A line of an operation other than `WAIT`, with nothing scheduled. -/
theorem reaches_own_line {s t : State} {f : Frame} {rest : List Frame} (hpc : s.pc = f :: rest) (hin : s.inbox = [])
    (hrun : runLine f rest s = .next t) (hdav : t.drv.dav = true → s.drv.dav = true)
    (hf : 0 < f.rank := by exact Nat.succ_pos _) : Reaches s t [] :=
  reaches_own hin (tickDue_of_rank hpc hf) ((mainStep_line hpc).trans hrun) hdav

/-- A line that ends the operation, with nothing scheduled. -/
theorem reaches_own_finish {s t : State} {r : Ret} {rest : List Frame} (hin : s.inbox = []) (hdue : s.tickDue = false)
    (hmain : mainStep s = .next (t.finish r rest)) (hdav : t.drv.dav = true → s.drv.dav = true) :
    Reaches s (t.finish r rest) [] :=
  reaches_own hin hdue hmain (by rwa [State.finish_drv])

/-- The lines of `dev_clear()` after its first. -/
theorem reaches_devClear_e2 {s : State} {rest : List Frame} (hpc : s.pc = .devClear .e2 :: rest) (hin : s.inbox = []) :
    Reaches s { s with dev := { s.dev with status := 0x00#8 }, drv.srq := false, pc := rest } [] := by
  have he2 := reaches_own_line hpc hin rfl id
  exact he2.trans (reaches_own_line (rest := rest) rfl hin rfl id)

end Sys2Proof.Machine

section
open Sys2Proof Sys2Proof.Machine

/-- Settles O41: a step is a line, a request's first line or an event, on the state with the schedule advanced. -/
theorem neverListensAndTalks : Obligations.NeverListensAndTalks := by
  intro s t hs hstep
  obtain ⟨q, p, rfl, hmove⟩ := step_moves hstep
  have hp : State.addressedOnce { s with inbox := q } := hs
  obtain ⟨f, rest, -, hrun⟩ | ⟨-, hrun⟩ | ⟨i, hk, -, hexec⟩ | ⟨i, hk, -, hexec⟩ := hmove
  · exact runLine_addressedOnce hp hrun
  · exact request_addressedOnce (i := .mainCycle) rfl hp hrun
  · exact request_addressedOnce hk hp hexec
  · exact event_addressedOnce hk hp hexec

/-- Settles O35: every arm is its definition, and `dev_clear()` runs on from its second line. -/
theorem commandTransitions : Obligations.CommandTransitions := by
  refine ⟨fun s a => ⟨rfl, rfl, rfl, rfl⟩, fun s => ⟨rfl, rfl, fun hin => ?_, fun rest => mainStep_line,
    fun rest => mainStep_line, rfl, rfl⟩, fun s a c => ⟨rfl, rfl, rfl, rfl, rfl⟩⟩
  exact reaches_devClear_e2 rfl hin

end
end

section
/-!
PROOFS. The lines of `DEVICE_CYCLE` (R240), and the cycles that take nothing off the bus: the reset on IFC (R251), the
reply to a serial poll (R249), and the quiet cycle.
-/

namespace Sys2Proof.Machine

section
variable {s : State} {rest : List Frame}

/-- `finish` hands the result to the caller, or returns it to the requester (R9, R100). -/
theorem State.handed_eq_finish (s : State) (r : Ret) (rest : List Frame) : s.handed r rest = s.finish r rest := by
  cases rest <;> rfl

/-! ### The lines of `DEVICE_CYCLE` (R240) -/

/-- The check of line `v0` passes, and IFC is sampled (R251). -/
theorem deviceCycleLine_v1 (hrole : s.cfg.role = .device) (hlo : s.cfg.listenOnly = false) :
    deviceCycleLine .v1 rest s =
      if s.bus.ifc then s.goto (.devClear .e1 :: .deviceCycle .v5 :: rest) else s.goto (.deviceCycle .v2 :: rest) := by
  have hdev : s.isDevice = true := decide_eq_true hrole
  rw [deviceCycleLine, hdev, hlo]
  rfl

theorem mainStep_v2_command (hpc : s.pc = .deviceCycle .v2 :: rest) (hatn : s.bus.atn = true) :
    mainStep s = .next (s.goto (.receiveByte .r1 :: .deviceCycle .v2Ret :: rest)) :=
  (mainStep_line hpc).trans (congrArg Host.Outcome.next (if_pos hatn))

theorem mainStep_v2_noCommand (hpc : s.pc = .deviceCycle .v2 :: rest) (hatn : s.bus.atn = false) :
    mainStep s = .next (s.goto (.deviceCycle .v3 :: rest)) :=
  (mainStep_line hpc).trans (congrArg Host.Outcome.next (if_neg (Bool.eq_false_iff.mp hatn)))

theorem mainStep_v3_reply (hpc : s.pc = .deviceCycle .v3 :: rest) (htalk : s.dev.talking = true)
    (harmed : s.dev.spArmed = true) :
    mainStep s = .next (s.goto (.sendByte s.dev.status false .s1 :: .deviceCycle .v3Ret :: rest)) :=
  (mainStep_line hpc).trans (congrArg Host.Outcome.next (if_pos (by rw [htalk, harmed]; rfl)))

theorem mainStep_v3_noReply (hpc : s.pc = .deviceCycle .v3 :: rest)
    (h : ¬ (s.dev.talking = true ∧ s.dev.spArmed = true)) :
    mainStep s = .next (s.goto (.deviceCycle .v4 :: rest)) :=
  (mainStep_line hpc).trans (congrArg Host.Outcome.next (if_neg (by rwa [Bool.and_eq_true])))

theorem mainStep_v4_drain (hpc : s.pc = .deviceCycle .v4 :: rest) (hlisten : s.dev.listening = true)
    (hdav : s.bus.dav = true) :
    mainStep s = .next (enterReceiveMessage .untilEoi 0x00#8 (.deviceCycle .v4Ret :: rest) s) :=
  (mainStep_line hpc).trans (congrArg Host.Outcome.next (if_pos (by rw [hlisten, hdav]; rfl)))

theorem mainStep_v4_noDav (hpc : s.pc = .deviceCycle .v4 :: rest) (hdav : s.bus.dav = false) :
    mainStep s = .next (s.finish .done rest) :=
  (mainStep_line hpc).trans (congrArg Host.Outcome.next (if_neg (by rw [hdav, Bool.and_false]; nofun)))

theorem mainStep_v5 (hpc : s.pc = .deviceCycle .v5 :: rest) : mainStep s = .next (s.finish .done rest) :=
  mainStep_line hpc

theorem reaches_cycle_end (hpc : s.pc = .deviceCycle .v5 :: rest) (hin : s.inbox = []) :
    Reaches s (s.finish .done rest) [] :=
  reaches_own_finish hin (tickDue_of_rank hpc (Nat.succ_pos _)) (mainStep_v5 hpc) id

/-- What follows the `SEND_BYTE` of a poll reply, whatever that returned (R249). -/
theorem reaches_reply_end (hpc : s.pc = .deviceCycle .v3Ret :: rest) (hin : s.inbox = []) :
    Reaches s (State.finish { s with dev.status := 0x00#8, dev.spArmed := false, drv.srq := false } .done rest) [] := by
  have hstatus := reaches_own_line hpc hin rfl id
  have hsrq := hstatus.trans (reaches_own_line (rest := rest) rfl hin rfl id)
  have hend := hsrq.trans (reaches_own_finish (r := .done) (rest := rest) hin rfl rfl id)
  exact hend.congr (State.finish_congr rfl)

/-! ### A cycle on a bus without IFC and ATN -/

/-- With nobody else on the bus and consistent drives an idle device sees neither IFC nor ATN (R88). -/
theorem ifc_atn_released_of_silent (hpc : s.pc = []) (hdrives : s.drivesConsistent) (hs : s.silent)
    (hrole : s.cfg.role = .device) : s.bus.ifc = false ∧ s.bus.atn = false := by
  obtain ⟨-, -, hofRole⟩ := hdrives
  obtain ⟨hatn, hifc, -⟩ := (hofRole (by rw [hpc]; rfl)).1 hrole
  rw [State.bus, hs.1]
  exact ⟨(Bool.or_false _).trans hifc, (Bool.or_false _).trans hatn⟩

/-- A cycle past its check of IFC, without a command: line `v3` is reached. -/
theorem reaches_v3 (hin : s.inbox = []) (hatn : s.bus.atn = false) :
    Reaches (s.goto (.deviceCycle .v2 :: rest)) (s.goto (.deviceCycle .v3 :: rest)) [] :=
  reaches_own hin rfl (mainStep_v2_noCommand (s := s.goto (.deviceCycle .v2 :: rest)) rfl hatn) id

section
variable (hatn : s.bus.atn = false) (htalk : s.dev.talking = true) (harmed : s.dev.spArmed = true)
include hatn htalk harmed

/-- A talking and armed device calls `SEND_BYTE` with its status byte (R249). -/
theorem reaches_reply_call (hin : s.inbox = []) :
    Reaches (s.goto (.deviceCycle .v2 :: rest))
      (s.goto (.sendByte s.dev.status false .s1 :: .deviceCycle .v3Ret :: rest)) [] :=
  (reaches_v3 hin hatn).trans
    (reaches_own hin rfl (mainStep_v3_reply (s := s.goto (.deviceCycle .v3 :: rest)) rfl htalk harmed) id)

/-- The reply on a silent bus: one byte (R249). -/
theorem reaches_reply (hrel : s.talkerReleased) (hs : s.silent) :
    Reaches (s.goto (.deviceCycle .v2 :: rest))
      (State.finish { s.afterSend with dev.status := 0x00#8, dev.spArmed := false, drv.srq := false } .done rest)
      [⟨s.dev.status, false, s.drv.atn⟩] := by
  have hsent := (reaches_reply_call (rest := rest) hatn htalk harmed hs.2).trans
    (reaches_called_sendByte hrel hs s.dev.status false)
  exact (hsent.trans (reaches_reply_end (rest := rest) rfl hs.2)).congr (State.finish_congr rfl)

/-- The reply that fails because both acceptor lines are held: no byte (R156, R249). -/
theorem reaches_reply_contention (hin : s.inbox = []) (hnrfd : s.rem.nrfd = true) (hndac : s.rem.ndac = true) :
    Reaches (s.goto (.deviceCycle .v2 :: rest))
      (State.finish { s.talkConfig with dev.status := 0x00#8, dev.spArmed := false, drv.srq := false } .done rest)
      [] := by
  have hs1 := (reaches_reply_call (rest := rest) hatn htalk harmed hin).trans
    (reaches_own (t := sendByteLine s.dev.status false .s1 (.deviceCycle .v3Ret :: rest) s) hin rfl rfl id)
  have hfailed := hs1.trans (reaches_sendByte_contention hin hnrfd hndac)
  exact (hfailed.trans (reaches_reply_end (rest := rest) rfl hin)).congr (State.finish_congr rfl)

end

/-- A cycle with no command, no reply and no byte on the bus ends at line `v4`. -/
theorem reaches_quietCycle (hin : s.inbox = []) (hatn : s.bus.atn = false)
    (hreply : ¬ (s.dev.talking = true ∧ s.dev.spArmed = true)) (hdav : s.bus.dav = false) :
    Reaches (s.goto (.deviceCycle .v2 :: rest)) (s.finish .done rest) [] := by
  have hv4 := (reaches_v3 (rest := rest) hin hatn).trans
    (reaches_own hin rfl (mainStep_v3_noReply (s := s.goto (.deviceCycle .v3 :: rest)) rfl hreply) id)
  have hend := hv4.trans (reaches_own_finish hin rfl
    (mainStep_v4_noDav (s := s.goto (.deviceCycle .v4 :: rest)) rfl hdav) id)
  exact hend.congr (State.finish_congr rfl)

end

/-- A run from a request that samples IFC released. -/
theorem exec_deviceCycle_reaches {s u : State} {tr : List Talked} (hpc : s.pc = []) (hrole : s.cfg.role = .device)
    (hlo : s.cfg.listenOnly = false) (hifc : s.bus.ifc = false) (h : Reaches (s.goto [.deviceCycle .v2]) u tr) :
    ∃ t k, exec .deviceCycle s = .next t ∧ Executes k t u tr := by
  have hv2 : deviceCycleLine .v1 [] s = s.goto [.deviceCycle .v2] :=
    (deviceCycleLine_v1 hrole hlo).trans (if_neg (Bool.eq_false_iff.mp hifc))
  obtain ⟨k, hk⟩ := h
  exact ⟨_, k, (State.accept_idle _ hpc).trans (congrArg _ hv2), hk⟩

end Sys2Proof.Machine

section
open Sys2Proof Sys2Proof.Machine

/-- Settles O36: line `v1` calls `ifc_reset()`, whose three lines return to line `v5`. -/
theorem interfaceClearResetsDevice : Obligations.InterfaceClearResetsDevice := by
  intro s hpc hrole hlo hifc
  have hv1 : deviceCycleLine .v1 [] s = s.goto [.devClear .e1, .deviceCycle .v5] :=
    (deviceCycleLine_v1 hrole hlo).trans (if_pos hifc)
  refine ⟨(State.accept_idle _ hpc).trans (congrArg _ hv1), fun hin => ?_⟩
  have hreset : Reaches (s.goto [.devClear .e1, .deviceCycle .v5]) _ [] := ⟨3, executes_devClear hin rfl⟩
  exact hreset.trans (reaches_cycle_end (rest := []) rfl hin)

/-- Settles O38: the reply ends in the same way whatever its `SEND_BYTE` returned, which is an error on contention and
`Ok()` on a silent bus. -/
theorem serialPollReplyOnce : Obligations.SerialPollReplyOnce := by
  refine ⟨fun s rest hpc hin => ?_, fun s hpc hin hrole hlo htalk harmed hifc hatn hnrfd hndac => ?_,
    fun s hpc htalkerOk hdrives hs hrole hlo htalk harmed => ?_⟩
  · rw [State.handed_eq_finish]
    exact reaches_reply_end hpc hin
  · exact exec_deviceCycle_reaches hpc hrole hlo hifc
      (reaches_reply_contention hatn htalk harmed hin hnrfd hndac)
  · obtain ⟨hifc, hatn⟩ := ifc_atn_released_of_silent hpc hdrives hs hrole
    have hreply := reaches_reply (rest := []) hatn htalk harmed (htalkerOk.released_of_idle hpc) hs
    have hown : s.drv.atn = false := (Bool.or_eq_false_iff.mp hatn).1
    rw [hown] at hreply
    exact exec_deviceCycle_reaches hpc hrole hlo hifc hreply

/-- Settles O39: no IFC, no ATN, no reply and no DAV, so the lines `v1` to `v4` pass on to the end. -/
theorem deviceCycleQuiet : Obligations.DeviceCycleQuiet := by
  intro s hpc htalkerOk hdrives hs hrole hlo hreply
  obtain ⟨hifc, hatn⟩ := ifc_atn_released_of_silent hpc hdrives hs hrole
  have hdav : s.bus.dav = false := by
    rw [State.bus, hs.1]
    exact (Bool.or_false _).trans (htalkerOk.released_of_idle hpc).1
  exact exec_deviceCycle_reaches hpc hrole hlo hifc (reaches_quietCycle hs.2 hatn hreply hdav)

end
end

section
/-!
PROOFS. The device cycles that take something off the bus: a command under ATN (R241), with the device clear it may run
to its end (R245), and the drain of the message that stands on the bus (R250).
-/

namespace Sys2Proof.Machine

/-! ### A command and its device clear -/

section
variable {s : State} {c : Cmd}

/-- The commands that run `dev_clear()` run its first line (R245). -/
theorem applyCmd_clearing (h : c = .dcl ∨ (c = .sdc ∧ s.dev.listening = true)) :
    applyCmd c s = devClearLine .e1 s.pc s := by
  obtain rfl | ⟨rfl, hlisten⟩ := h
  · rfl
  · exact if_pos hlisten

/-- Every other command leaves the sequencer where it is. -/
theorem applyCmd_pc_of_not_clearing (h : ¬ (c = .dcl ∨ (c = .sdc ∧ s.dev.listening = true))) :
    (applyCmd c s).pc = s.pc := by
  cases c with
  | dcl => exact absurd (.inl rfl) h
  | sdc => rw [applyCmd, onSdc, if_neg fun hlisten => h (.inr ⟨rfl, hlisten⟩)]
  | mla a => rw [applyCmd, onMla]; split <;> rfl
  | mta a => rw [applyCmd, onMta]; split <;> rfl
  | gtl | get | llo => rw [applyCmd, onHook]; split <;> rfl
  | unl | unt | spe | spd | msa | other => rfl

/-- From a command to the end of its cycle: a device clear is carried to its end. -/
theorem reaches_command_end {rest : List Frame} (hpc : s.pc = .deviceCycle .v5 :: rest) (hin : s.inbox = []) :
    Reaches (applyCmd c s)
      ((if c = .dcl ∨ (c = .sdc ∧ s.dev.listening = true) then
          { applyCmd c s with dev := Device.cleared, drv.srq := false }
        else applyCmd c s).finish .done rest) [] := by
  split
  · next h =>
    rw [applyCmd_clearing h]
    have hclear := reaches_devClear_e2 (s := devClearLine .e1 s.pc s) rfl hin
    exact (hclear.trans (reaches_cycle_end hpc hin)).congr (State.finish_congr rfl)
  · next h =>
    exact reaches_cycle_end ((applyCmd_pc_of_not_clearing h).trans hpc) ((applyCmd_inbox c s).trans hin)

end

section
variable {s : State} {rest : List Frame} {q : List Item}

theorem mainStep_v2Ret_failed {e : ErrKind} (hpc : s.pc = .deviceCycle .v2Ret :: rest) (hret : s.ret = .err e) :
    mainStep s = .next (s.goto (.deviceCycle .v5 :: rest)) := by
  have hnothing : applyReceived (s.goto (.deviceCycle .v5 :: rest)) = s.goto (.deviceCycle .v5 :: rest) := by
    rw [applyReceived, State.goto_ret, hret]
  exact (mainStep_line hpc).trans (congrArg Host.Outcome.next hnothing)

/-- Under ATN the cycle runs the first line of `RECEIVE_BYTE`. -/
theorem reaches_commandByte (hatn : s.rem.atn = true) (hin : s.inbox = passes 2 ++ q) :
    Reaches (s.goto (.deviceCycle .v2 :: rest))
      (receiveByteLine .r1 (.deviceCycle .v2Ret :: rest) { s with inbox := q }) [] := by
  have hbus : s.bus.atn = true := (congrArg (s.drv.atn || ·) hatn).trans (Bool.or_true _)
  have hcall := reaches_pass (s := s.goto (.deviceCycle .v2 :: rest)) (q := passes 1 ++ q) hin
    (mainStep_v2_command (s := { s with inbox := passes 1 ++ q, pc := .deviceCycle .v2 :: rest }) rfl hbus) id
  exact hcall.trans (reaches_line rfl rfl rfl nofun)

/-- A conforming controller's byte is decoded once and applied (R223, R241). -/
theorem reaches_command {b : Byte} {eoi : Bool} (hatn : s.rem.atn = true) (hn : s.noTalker)
    (hin : s.inbox = passes 1 ++ (talkerByte b eoi 5 ++ q)) :
    Reaches (s.goto (.deviceCycle .v2 :: rest))
      (applyCmd (decodeCommand s.par.maskDio8 b)
        { { s with inbox := q }.afterReceive b eoi with pc := .deviceCycle .v5 :: rest, ret := .okByteEoi b eoi })
      [] := by
  have hcall := reaches_commandByte (rest := rest) (q := (talkerByte b eoi 4).tail ++ (passes 1 ++ q)) hatn hin
  have hbyte := hcall.trans (reaches_receiveByte_talker (q := passes 1 ++ q) hn rfl)
  exact hbyte.trans (reaches_pass rfl ((mainStep_receivedCommand rfl rfl).trans (exec_cmd _ _))
    (by rw [applyCmd_drv]; exact id))

/-- Without a byte the cycle ends in the exit drives of its `RECEIVE_BYTE` (R162, R166). -/
theorem reaches_command_timedOut (hatn : s.rem.atn = true) (hdav : s.rem.dav = false)
    (hT : s.cfg.timeoutMs.toNat ≤ 3000)
    (hin : s.inbox = passes 6 ++ (ticks (s.cfg.timeoutMs.toNat + 1) ++ (passes 5 ++ q))) :
    Reaches (s.goto (.deviceCycle .v2 :: rest))
      ({ s.listenConfig with inbox := q, hs.tmoCnt := s.cfg.timeoutMs + 1#16, hs.tickEn := false, drv.ndac := true,
                             drv.nrfd := true }.finish .done rest) [] := by
  have hcall := reaches_commandByte (rest := rest)
    (q := passes 4 ++ (ticks (s.cfg.timeoutMs.toNat + 1) ++ (passes 3 ++ (passes 2 ++ q)))) hatn hin
  have htimeout := hcall.trans (reaches_receiveByte_noDav (q := passes 2 ++ q) hdav hT rfl)
  have hv5 := htimeout.trans (reaches_pass (q := passes 1 ++ q) rfl (mainStep_v2Ret_failed rfl rfl) id)
  exact (hv5.trans (reaches_finish rfl (mainStep_v5 rfl) id)).congr (State.finish_congr rfl)

end

/-! ### The message that stands on the bus (R250) -/

section
variable {s : State} {rest : List Frame} {q : List Item}

/-- The talker has taken its byte off the bus. -/
def State.talkerGone (s : State) : State := { s with rem := s.rem.update talkerOff }

/-- A byte that stands on the bus when `RECEIVE_BYTE` starts, and is released after it is accepted (R163). -/
theorem reaches_receiveByte_standing (hdav : s.rem.dav = true)
    (hin : s.inbox = passes 11 ++ (drives talkerOff ++ (passes 4 ++ q))) :
    Reaches (receiveByteLine .r1 rest s)
      (({ s with inbox := q }.talkerGone.afterReceive s.rem.dio s.rem.eoi).finish (.okByteEoi s.rem.dio s.rem.eoi) rest)
      [] := by
  have hpoll := reaches_receiveByte_davPoll (rest := rest) (q := passes 7 ++ _) hin
  have hlatched := (hpoll.trans (reaches_receiveByte_latched rfl hdav rfl)).trans (reaches_drive rfl)
  have hend := hlatched.trans (reaches_receiveByte_end rfl rfl rfl)
  exact hend.congr (congrArg (fun b : Byte =>
    ({ s with inbox := q }.talkerGone.afterReceive b s.rem.eoi).finish (.okByteEoi b s.rem.eoi) rest) BitVec.zero_or)

/-- A standing byte that ends the message is the whole of it (R185, R187). -/
theorem reaches_standingMessage {mode : RecvMode} {stop : Byte} {reason : EndReason} (hdav : s.rem.dav = true)
    (hend : messageEnd mode stop s.rem.dio s.rem.eoi = some reason) (hin : s.inbox = talkerWaiting 7 ++ q) :
    Reaches (enterReceiveMessage mode stop rest s)
      (({ s with inbox := q, out.linkTx := s.out.linkTx ++ [s.rem.dio] ++ s.eotBytes }.talkerGone.afterReceive
        s.rem.dio s.rem.eoi).finish (.ended reason) rest) [] := by
  have hcall := reaches_receiveMessage_call (mode := mode) (stop := stop) (rest := rest)
    (q := passes 11 ++ (drives talkerOff ++ (passes 4 ++ (passes 3 ++ q)))) hin
  have hbyte := hcall.trans (reaches_receiveByte_standing (q := passes 3 ++ q) hdav rfl)
  have hm1 := hbyte.trans (reaches_pass (q := passes 2 ++ q) rfl (mainStep_m1_received rfl rfl) id)
  have hm2 := hm1.trans (reaches_pass (q := passes 1 ++ q) rfl
    ((mainStep_m2 rfl).trans (congrArg Host.Outcome.next (forwardByte_ends hend))) id)
  exact (hm2.trans (reaches_finish rfl (mainStep_m3 rfl) id)).congr (State.finish_congr rfl)

/-- A listening device that is not about to reply drains it. -/
theorem reaches_drain (hatn : s.bus.atn = false) (hlisten : s.dev.listening = true) (htalk : s.dev.talking = false)
    (hdav : s.rem.dav = true) (heoi : s.rem.eoi = true) (hin : s.inbox = passes 3 ++ (talkerWaiting 8 ++ q)) :
    Reaches (s.goto (.deviceCycle .v2 :: rest))
      (({ s with inbox := q, out.linkTx := s.out.linkTx ++ [s.rem.dio] ++ s.eotBytes }.talkerGone.afterReceive
        s.rem.dio true).finish .done rest) [] := by
  have hbus : s.bus.dav = true := (congrArg (s.drv.dav || ·) hdav).trans (Bool.or_true _)
  have hreply : ¬ (s.dev.talking = true ∧ s.dev.spArmed = true) := fun h => Bool.false_ne_true (htalk.symm.trans h.1)
  have hv3 := reaches_pass (s := s.goto (.deviceCycle .v2 :: rest)) (q := passes 2 ++ (talkerWaiting 8 ++ q)) hin
    (mainStep_v2_noCommand (s := { s with inbox := passes 2 ++ (talkerWaiting 8 ++ q), pc := _ }) rfl hatn) id
  have hv4 := hv3.trans (reaches_pass (q := passes 1 ++ (talkerWaiting 8 ++ q)) rfl (mainStep_v3_noReply rfl hreply) id)
  have hcall := hv4.trans (reaches_pass (q := talkerWaiting 7 ++ (passes 1 ++ q)) rfl
    (mainStep_v4_drain rfl hlisten hbus) id)
  have hmessage := hcall.trans (reaches_standingMessage (q := passes 1 ++ q) hdav (reason := .eoi)
    (if_pos heoi) rfl)
  rw [← heoi]
  exact (hmessage.trans (reaches_finish (r := .done) (rest := rest) rfl rfl id)).congr (State.finish_congr rfl)

end

end Sys2Proof.Machine

section
open Sys2Proof Sys2Proof.Machine

/-- Settles O37: the byte, its command, and the end of the cycle; or the timeout of the `RECEIVE_BYTE`. -/
theorem deviceCycleAppliesCommand : Obligations.DeviceCycleAppliesCommand := by
  refine ⟨fun s b eoi q hpc hrole hlo hifc hatn hn hin => ?_, fun s q hpc hrole hlo hifc hatn hdav hT hin => ?_⟩
  · rw [List.append_assoc] at hin
    obtain ⟨t, k, ht, hk⟩ := exec_deviceCycle_reaches hpc hrole hlo hifc (reaches_command (rest := []) hatn hn hin)
    exact ⟨t, k, _, ht, hk, exec_cmd _ _, fun hq => reaches_command_end (rest := []) rfl hq⟩
  · rw [List.append_assoc, List.append_assoc] at hin
    exact exec_deviceCycle_reaches hpc hrole hlo hifc (reaches_command_timedOut (rest := []) hatn hdav hT hin)

/-- Settles O40: lines `v2` and `v3` pass on to the drain of line `v4`. -/
theorem deviceDrainsMessage : Obligations.DeviceDrainsMessage := by
  intro s q hpc hrole hlo hlisten honce hifc hatn hdav heoi hin
  have htalk : s.dev.talking = false := Bool.eq_false_iff.mpr fun h => honce ⟨hlisten, h⟩
  rw [List.append_assoc] at hin
  exact exec_deviceCycle_reaches hpc hrole hlo hifc (reaches_drain (rest := []) hatn hlisten htalk hdav heoi hin)

end
end

section
/-!
PROOFS. The mode and status requests (R255 to R258).  `SET_ROLE` leaves the idle drives of its role (R343), and
`SET_LISTEN_ONLY` leaves the idle acceptor in Device role only.
-/

namespace Sys2Proof.Machine

section
variable {s : State} {rest : List Frame} (hin : s.inbox = [])
include hin

/-- `SET_ROLE` after its first line. -/
theorem reaches_setRole (new : Role) :
    Reaches (s.goto (.setRole new .t2 :: rest))
      ((({ s with dev := Device.cleared }.idleDrives new).emitPersist .role).finish .ok rest) [] := by
  have ht3 : Reaches (s.goto (.setRole new .t2 :: rest))
      { s with dev := Device.cleared, pc := .setRole new .t3 :: rest } [] := reaches_own hin rfl rfl id
  have ht4 := ht3.trans (reaches_own hin rfl rfl id)
  have ht5 := ht4.trans (reaches_own hin rfl rfl nofun)
  have ht6 : Reaches (s.goto (.setRole new .t2 :: rest))
      (({ s with dev := Device.cleared }.idleDrives new).goto (.setRole new .t6 :: rest)) [] := by
    cases new <;> exact ht5.trans (reaches_own hin rfl rfl nofun)
  have hidle : ({ s with dev := Device.cleared }.idleDrives new).inbox = [] := (State.idleDrives_inbox _ new).trans hin
  have hend := ht6.trans
    (reaches_own_finish (t := State.emitPersist _ .role) (r := .ok) (rest := rest) hidle rfl rfl id)
  exact hend.congr (State.finish_congr rfl)

/-- `SET_LISTEN_ONLY` after its first line, in Device role. -/
theorem reaches_setListenOnly_device (on : Bool) (hrole : s.cfg.role = .device) :
    Reaches (s.goto (.setListenOnly on .n2 :: rest))
      (({ s with dev := Device.cleared, drv.srq := false }.listenConfig.holdAcceptor.emitPersist .listenOnly).finish .ok
        rest) [] := by
  have hnext : (if s.isDevice then SetListenOnlyLine.n3 else .n5) = .n3 := if_pos (decide_eq_true hrole)
  have hn3 : Reaches (s.goto (.setListenOnly on .n2 :: rest))
      { s with dev := Device.cleared, drv.srq := false, pc := .setListenOnly on .n3 :: rest } [] :=
    hnext ▸ reaches_own hin rfl rfl id
  have hn5 := (hn3.trans (reaches_own hin rfl rfl nofun)).trans (reaches_own hin rfl rfl id)
  have hend := hn5.trans
    (reaches_own_finish (t := State.emitPersist _ .listenOnly) (r := .ok) (rest := rest) hin rfl rfl id)
  exact hend.congr (State.finish_congr rfl)

/-- In Controller role the drives are left alone, but for SRQ. -/
theorem reaches_setListenOnly_controller (on : Bool) (hrole : s.cfg.role ≠ .device) :
    Reaches (s.goto (.setListenOnly on .n2 :: rest))
      ((State.emitPersist { s with dev := Device.cleared, drv.srq := false } .listenOnly).finish .ok rest) [] := by
  have hnext : (if s.isDevice then SetListenOnlyLine.n3 else .n5) = .n5 :=
    if_neg (Bool.eq_false_iff.mp (decide_eq_false hrole))
  have hn5 : Reaches (s.goto (.setListenOnly on .n2 :: rest))
      { s with dev := Device.cleared, drv.srq := false, pc := .setListenOnly on .n5 :: rest } [] :=
    hnext ▸ reaches_own hin rfl rfl id
  have hend := hn5.trans
    (reaches_own_finish (t := State.emitPersist _ .listenOnly) (r := .ok) (rest := rest) hin rfl rfl id)
  exact hend.congr (State.finish_congr rfl)

end

/-- `SET_SRQ` in Device role (R258). -/
theorem exec_setSrq_device {s : State} (hpc : s.pc = []) (hrole : s.cfg.role = .device) (on : Bool) :
    exec (.setSrq on) s = .next ({ s with drv.srq := on }.returned .ok) :=
  (State.accept_idle _ hpc).trans (congrArg Host.Outcome.next (if_pos (decide_eq_true hrole)))

theorem exec_setSrq_controller {s : State} (hpc : s.pc = []) (hrole : s.cfg.role = .controller) (on : Bool) :
    exec (.setSrq on) s = .next (s.returned (.err .roleViolation)) := by
  have hdev : s.isDevice = false := decide_eq_false (by rw [hrole]; nofun)
  exact (State.accept_idle _ hpc).trans (congrArg Host.Outcome.next (if_neg (Bool.eq_false_iff.mp hdev)))

end Sys2Proof.Machine

section
open Sys2Proof Sys2Proof.Machine

/-- Settles O42: the first line of each request, and the lines after it. -/
theorem modeAndStatusRequests : Obligations.ModeAndStatusRequests := by
  intro s hpc
  refine ⟨fun r => State.accept_idle _ hpc, fun on => State.accept_idle _ hpc,
    fun hin => reaches_setRole (s := { s with cfg.role := .controller }) (rest := []) hin .controller,
    fun hin => reaches_setRole (s := { s with cfg.role := .device }) (rest := []) hin .device,
    fun hin on => ?_, fun v => State.accept_idle _ hpc, fun hrole => exec_setSrq_device hpc hrole,
    fun hrole => exec_setSrq_controller hpc hrole⟩
  split
  · next hrole =>
    exact reaches_setListenOnly_device (s := { s with cfg.listenOnly := on }) (rest := []) hin on hrole
  · next hrole =>
    exact reaches_setListenOnly_controller (s := { s with cfg.listenOnly := on }) (rest := []) hin on hrole

end
end

section
/-!
PROOFS. Listen-only mode (R270 to R275): the lines of `LISTEN_ONLY_CYCLE`, the cycles that log a command, log nothing or
drain the message that stands on the bus, and the lines of a main cycle, none of which transmits.
-/

namespace Sys2Proof.Machine

/-! ### The lines of `LISTEN_ONLY_CYCLE` (R270) -/

section
variable {s : State} {rest : List Frame}

theorem mainStep_l2_command (hpc : s.pc = .listenOnlyCycle .l2 :: rest) (hatn : s.bus.atn = true) :
    mainStep s = .next (s.goto (.receiveByte .r1 :: .listenOnlyCycle .l2Ret :: rest)) :=
  (mainStep_line hpc).trans (congrArg Host.Outcome.next (if_pos hatn))

theorem mainStep_l2_noCommand (hpc : s.pc = .listenOnlyCycle .l2 :: rest) (hatn : s.bus.atn = false) :
    mainStep s = .next (s.goto (.listenOnlyCycle .l3 :: rest)) :=
  (mainStep_line hpc).trans (congrArg Host.Outcome.next (if_neg (Bool.eq_false_iff.mp hatn)))

/-- A byte received under ATN is decoded once, and its entry is logged (R223, R271). -/
theorem mainStep_l2Ret_byte {b : Byte} {eoi : Bool} (hpc : s.pc = .listenOnlyCycle .l2Ret :: rest)
    (hret : s.ret = .okByteEoi b eoi) :
    mainStep s = .next ((s.emitLog (logEntry b (decodeCommand s.par.maskDio8 b))).finish .done rest) := by
  have hlog : logReceived s = s.emitLog (logEntry b (decodeCommand s.par.maskDio8 b)) := by rw [logReceived, hret]
  exact (mainStep_line hpc).trans (congrArg (fun t : State => Host.Outcome.next (t.finish .done rest)) hlog)

theorem mainStep_l2Ret_failed {e : ErrKind} (hpc : s.pc = .listenOnlyCycle .l2Ret :: rest) (hret : s.ret = .err e) :
    mainStep s = .next (s.finish .done rest) := by
  have hnothing : logReceived s = s := by rw [logReceived, hret]
  exact (mainStep_line hpc).trans (congrArg (fun t : State => Host.Outcome.next (t.finish .done rest)) hnothing)

theorem mainStep_l3_drain (hpc : s.pc = .listenOnlyCycle .l3 :: rest) (hdav : s.bus.dav = true) :
    mainStep s = .next (enterReceiveMessage .untilEoi 0x00#8 (.listenOnlyCycle .l3Ret :: rest) s) :=
  (mainStep_line hpc).trans (congrArg Host.Outcome.next (if_pos hdav))

theorem mainStep_l3_noDav (hpc : s.pc = .listenOnlyCycle .l3 :: rest) (hdav : s.bus.dav = false) :
    mainStep s = .next (s.finish .done rest) :=
  (mainStep_line hpc).trans (congrArg Host.Outcome.next (if_neg (Bool.eq_false_iff.mp hdav)))

theorem mainStep_l3Ret (hpc : s.pc = .listenOnlyCycle .l3Ret :: rest) : mainStep s = .next (s.finish .done rest) :=
  mainStep_line hpc

end

/-! ### Whole cycles -/

section
variable {s : State} {rest : List Frame} {q : List Item}

/-- Line `l1` with its check, at the head of the cycle (R270). -/
def State.listenOnlyEntered (s : State) (rest : List Frame) : State :=
  { s with hs.xcvr := .listen, pc := .listenOnlyCycle .l1Talker :: rest }

/-- The idle acceptor of line `l1` (R270). -/
def State.listenIdle (s : State) : State := s.listenConfig.holdAcceptor

theorem listenOnlyLine_l1 (hrole : s.cfg.role = .device) (hlo : s.cfg.listenOnly = true) :
    listenOnlyLine .l1 rest s = s.listenOnlyEntered rest := by
  have hdev : s.isDevice = true := decide_eq_true hrole
  rw [listenOnlyLine, hdev, hlo]
  rfl

/-- Line `l1` leaves the idle acceptor. -/
theorem reaches_l2 (hin : s.inbox = passes 2 ++ q) :
    Reaches (s.listenOnlyEntered rest) ({ s with inbox := q }.listenIdle.goto (.listenOnlyCycle .l2 :: rest)) [] := by
  have hreleased : Reaches (s.listenOnlyEntered rest)
      ({ s with inbox := passes 1 ++ q }.listenConfig.goto (.listenOnlyCycle .l1Acceptor :: rest)) [] :=
    reaches_line rfl hin rfl nofun
  exact hreleased.trans (reaches_line rfl rfl rfl id)

/-- Line `l1` with nothing scheduled. -/
theorem reaches_own_l2 (hin : s.inbox = []) :
    Reaches (s.listenOnlyEntered rest) (s.listenIdle.goto (.listenOnlyCycle .l2 :: rest)) [] := by
  have hreleased : Reaches (s.listenOnlyEntered rest)
      (s.listenConfig.goto (.listenOnlyCycle .l1Acceptor :: rest)) [] := reaches_own_line rfl hin rfl nofun
  exact hreleased.trans (reaches_own_line rfl hin rfl id)

/-- Under ATN the cycle runs the first line of `RECEIVE_BYTE`. -/
theorem reaches_listenedByte (hatn : s.rem.atn = true) (hin : s.inbox = passes 4 ++ q) :
    Reaches (s.listenOnlyEntered rest)
      (receiveByteLine .r1 (.listenOnlyCycle .l2Ret :: rest) { s with inbox := q }.listenIdle) [] := by
  have hbus : s.listenIdle.bus.atn = true := (congrArg (s.drv.atn || ·) hatn).trans (Bool.or_true _)
  have hcall := (reaches_l2 (rest := rest) (q := passes 2 ++ q) hin).trans
    (reaches_pass (q := passes 1 ++ q) rfl (mainStep_l2_command rfl hbus) id)
  exact hcall.trans (reaches_line rfl rfl rfl nofun)

/-- A conforming controller's byte is logged (R271). -/
theorem reaches_logged {b : Byte} {eoi : Bool} (hatn : s.rem.atn = true) (hn : s.noTalker)
    (hin : s.inbox = passes 3 ++ (talkerByte b eoi 5 ++ q)) :
    Reaches (s.listenOnlyEntered rest)
      (({ s with inbox := q, out.loLog := s.out.loLog ++ [logEntry b (decodeCommand s.par.maskDio8 b)] }.afterReceive
        b eoi).finish .done rest) [] := by
  have hcall := reaches_listenedByte (rest := rest) (q := (talkerByte b eoi 4).tail ++ (passes 1 ++ q)) hatn hin
  have hbyte := hcall.trans (reaches_receiveByte_talker (q := passes 1 ++ q) hn rfl)
  exact (hbyte.trans (reaches_finish rfl (mainStep_l2Ret_byte rfl rfl) id)).congr (State.finish_congr rfl)

/-- Without a byte nothing is logged, and the cycle ends in the exit drives of its `RECEIVE_BYTE` (R162, R166). -/
theorem reaches_notLogged (hatn : s.rem.atn = true) (hdav : s.rem.dav = false) (hT : s.cfg.timeoutMs.toNat ≤ 3000)
    (hin : s.inbox = passes 8 ++ (ticks (s.cfg.timeoutMs.toNat + 1) ++ (passes 4 ++ q))) :
    Reaches (s.listenOnlyEntered rest)
      ({ s.listenConfig with inbox := q, hs.tmoCnt := s.cfg.timeoutMs + 1#16, hs.tickEn := false, drv.ndac := true,
                             drv.nrfd := true }.finish .done rest) [] := by
  have hcall := reaches_listenedByte (rest := rest)
    (q := passes 4 ++ (ticks (s.cfg.timeoutMs.toNat + 1) ++ (passes 3 ++ (passes 1 ++ q)))) hatn hin
  have htimeout := hcall.trans (reaches_receiveByte_noDav (q := passes 1 ++ q) hdav hT rfl)
  exact (htimeout.trans (reaches_finish rfl (mainStep_l2Ret_failed rfl rfl) id)).congr (State.finish_congr rfl)

/-- On a silent bus the cycle reapplies the idle acceptor drives and ends at line `l3`. -/
theorem reaches_listenedNothing (hs : s.silent) (hatn : s.drv.atn = false) :
    Reaches (s.listenOnlyEntered rest) (s.listenIdle.finish .done rest) [] := by
  obtain ⟨hrem, hin⟩ := hs
  obtain ⟨hbusAtn, hbusDav⟩ : s.listenIdle.bus.atn = false ∧ s.listenIdle.bus.dav = false := by
    have hidle : s.listenIdle.bus = s.listenIdle.drv.wiredOr Drives.released := congrArg _ hrem
    rw [hidle]
    exact ⟨(Bool.or_false _).trans hatn, rfl⟩
  have hl3 := (reaches_own_l2 (rest := rest) hin).trans
    (reaches_own hin rfl (mainStep_l2_noCommand (s := s.listenIdle.goto (.listenOnlyCycle .l2 :: rest)) rfl hbusAtn) id)
  have hend := hl3.trans (reaches_own_finish hin rfl
    (mainStep_l3_noDav (s := s.listenIdle.goto (.listenOnlyCycle .l3 :: rest)) rfl hbusDav) id)
  exact hend.congr (State.finish_congr rfl)

/-- With ATN released the byte that stands on the bus with EOI is drained, whatever the device state (R272). -/
theorem reaches_listenedMessage (hatn : s.bus.atn = false) (hdav : s.rem.dav = true) (heoi : s.rem.eoi = true)
    (hin : s.inbox = passes 4 ++ (talkerWaiting 8 ++ q)) :
    Reaches (s.listenOnlyEntered rest)
      (({ s with inbox := q, out.linkTx := s.out.linkTx ++ [s.rem.dio] ++ s.eotBytes }.talkerGone.afterReceive
        s.rem.dio true).finish .done rest) [] := by
  have hbus : s.listenIdle.bus.dav = true := (congrArg (s.listenIdle.drv.dav || ·) hdav).trans (Bool.or_true _)
  have hl3 := (reaches_l2 (rest := rest) (q := passes 2 ++ (talkerWaiting 8 ++ q)) hin).trans
    (reaches_pass (q := passes 1 ++ (talkerWaiting 8 ++ q)) rfl (mainStep_l2_noCommand rfl hatn) id)
  have hcall := hl3.trans (reaches_pass (q := talkerWaiting 7 ++ (passes 1 ++ q)) rfl (mainStep_l3_drain rfl hbus) id)
  have hmessage := hcall.trans (reaches_standingMessage (q := passes 1 ++ q) hdav (reason := .eoi) (if_pos heoi) rfl)
  rw [← heoi]
  exact (hmessage.trans (reaches_finish rfl (mainStep_l3Ret rfl) id)).congr (State.finish_congr rfl)

end

/-- A run from a request in listen-only mode. -/
theorem exec_listenOnlyCycle_reaches {s u : State} {tr : List Talked} (hpc : s.pc = []) (hrole : s.cfg.role = .device)
    (hlo : s.cfg.listenOnly = true) (h : Reaches (s.listenOnlyEntered []) u tr) :
    ∃ t k, exec .listenOnlyCycle s = .next t ∧ Executes k t u tr := by
  obtain ⟨k, hk⟩ := h
  exact ⟨_, k, (State.accept_idle _ hpc).trans (congrArg _ (listenOnlyLine_l1 hrole hlo)), hk⟩

/-! ### A line of a main cycle in listen-only mode (R273, R275) -/

/-- From `s` to `t` the block asserts no line it must not, drives no data and emits no `dev_event`; the operation called by
`rest` has returned, or goes on with listening frames above `rest`. -/
structure OnlyListens (rest : List Frame) (s t : State) : Prop where
  frames : rest.all Frame.onlyListens = true → t.pc.all Frame.onlyListens = true := by exact id
  devEvent : t.out.devEvent = s.out.devEvent := by rfl
  drv : s.drv.transmitsNothing t.drv := by exact ⟨id, id, id, id, id, id, .inl rfl⟩

namespace OnlyListens

variable {rest fs : List Frame} {s t u : State} {f : Frame}

theorem push (h : OnlyListens rest s (u.goto fs)) (hf : f.onlyListens = true := by rfl) :
    OnlyListens rest s (u.goto (f :: fs)) where
  frames hrest := (Bool.and_eq_true _ _).mpr ⟨hf, h.frames hrest⟩
  devEvent := h.devEvent
  drv := h.drv

/-- An operation that ends appends its result at most (R100). -/
theorem finish (h : OnlyListens rest s (u.goto rest)) (r : Ret) : OnlyListens rest s (u.finish r rest) where
  frames := by rw [State.finish_pc]; exact id
  devEvent := by
    have hout := h.devEvent
    cases rest <;> exact hout
  drv := by rw [State.finish_drv]; exact h.drv

theorem ite {c : Prop} [Decidable c] (ht : OnlyListens rest s t) (hu : OnlyListens rest s u) :
    OnlyListens rest s (if c then t else u) := by
  split
  · exact ht
  · exact hu

end OnlyListens

/-- Releasing the talker lines asserts nothing. -/
theorem State.releaseTalker_transmitsNothing (s : State) : s.drv.transmitsNothing s.releaseTalker.drv :=
  ⟨nofun, nofun, id, id, id, id, .inr rfl⟩

section
variable (rest : List Frame) (s : State)

theorem waitLine_onlyListens (c : WaitCond) (l : WaitLine) : OnlyListens rest s (waitLine c l rest s) := by
  cases l with
  | w1 | w2 => exact .push {}
  | w3 | w4 => exact .ite (.finish {} _) (.push {})

/-- `RECEIVE_BYTE` releases the talker lines and drives NRFD and NDAC only (R160). -/
theorem receiveByteLine_onlyListens (l : ReceiveByteLine) : OnlyListens rest s (receiveByteLine l rest s) := by
  cases l with
  | r1 => exact .push { drv := s.releaseTalker_transmitsNothing }
  | r2 | r5 | r6 | r9 => exact .push {}
  | r3 | r7 => exact .push (.push {})
  | r4 | r8 => exact .ite (.finish {} _) (.push {})
  | r10 => exact .finish {} _

theorem receiveMessageLine_onlyListens (m : RecvMode) (c : Byte) (l : ReceiveMessageLine) :
    OnlyListens rest s (receiveMessageLine m c l rest s) := by
  cases l with
  | m1 => rw [receiveMessageLine]; split <;> exact .push {}
  | m2 b eoi =>
    rw [receiveMessageLine, forwardByte]
    split
    · exact .push {}
    · exact .push (.push {})
  | m3 reason => exact .ite (.finish {} _) (.finish {} _)

theorem logReceived_onlyListens : OnlyListens rest s ((logReceived s).goto rest) := by
  obtain h | ⟨e, h⟩ := logReceived_cases s <;> rw [h] <;> exact {}

theorem listenOnlyLine_onlyListens (l : ListenOnlyLine) : OnlyListens rest s (listenOnlyLine l rest s) := by
  cases l with
  | l1 => exact .ite (.finish {} _) (.push {})
  | l1Talker => exact .push { drv := s.releaseTalker_transmitsNothing }
  | l1Acceptor => exact .push {}
  | l2 => exact .ite (.push (.push {})) (.push {})
  | l2Ret => exact .finish (logReceived_onlyListens rest s) _
  | l3 => exact .ite (.push (.push (.push {}))) (.finish {} _)
  | l3Ret => exact .finish {} _

section
variable {s} (hrole : s.cfg.role = .device) (hlo : s.cfg.listenOnly = true)
include hrole hlo

/-- A data record is dropped (R283). -/
theorem dataRecord_listenOnly (payload : List Byte) : dataRecord payload rest s = s.goto (.mainCycle .k3 :: rest) := by
  have hcontroller : s.isController = false := decide_eq_false (by rw [hrole]; nofun)
  have htalks : (s.dev.talking && !s.cfg.listenOnly) = false := by rw [hlo, Bool.not_true, Bool.and_false]
  rw [dataRecord, hcontroller, htalks]
  rfl

/-- The cycle of line `k3` is the listen-only one (R276, R284). -/
theorem busProcessing_listenOnly :
    busProcessing rest s = s.goto (.listenOnlyCycle .l1 :: .mainCycle .k3Ret :: rest) :=
  (if_pos (decide_eq_true hrole)).trans (if_pos hlo)

theorem routeRecord_onlyListens (popped : Option Record) : OnlyListens rest s (routeRecord popped rest s) := by
  cases popped with
  | none => exact .push {}
  | some x =>
    rw [routeRecord, dataRecord_listenOnly rest hrole hlo]
    exact .ite (.push {}) (.push {})

theorem mainCycleLine_onlyListens {l : MainCycleLine} (hl : (Frame.mainCycle l).onlyListens = true) :
    OnlyListens rest s (mainCycleLine l rest s) := by
  cases l with
  | k1 => exact .push {}
  | k2 popped => exact routeRecord_onlyListens rest hrole hlo popped
  | k2Ret | k2Byte => cases hl
  | k3 =>
    rw [mainCycleLine, busProcessing_listenOnly rest hrole hlo]
    exact .push (.push {})
  | k3Ret => exact .finish {} _

theorem runLine_onlyListens {f : Frame} {t : State} (hf : f.onlyListens = true) (h : runLine f rest s = .next t) :
    OnlyListens rest s t := by
  cases f with
  | wait c l => cases h; exact waitLine_onlyListens rest s c l
  | receiveByte l => cases h; exact receiveByteLine_onlyListens rest s l
  | receiveMessage m c l => cases h; exact receiveMessageLine_onlyListens rest s m c l
  | listenOnlyCycle l => cases h; exact listenOnlyLine_onlyListens rest s l
  | mainCycle l => cases h; exact mainCycleLine_onlyListens rest hrole hlo hf
  | _ => cases hf

end

end

/-- No listening frame writes the device state (R273). -/
theorem Frame.writesDevice_of_onlyListens {f : Frame} (hf : f.onlyListens = true) : f.writesDevice = false := by
  cases f with
  | devClear | deviceCycle | setRole | setListenOnly => cases hf
  | _ => rfl

/-- The main loop runs the next frame's line, on an idle block too (R286). -/
theorem mainStep_runLine {s t : State} (h : mainStep s = .next t) : runLine s.nextFrame s.pc.tail s = .next t := by
  unfold mainStep at h
  unfold State.nextFrame
  split at h
  · next hpc =>
    obtain ⟨-, rfl⟩ := State.accept_next h
    rw [hpc]
    rfl
  · next hpc =>
    rw [hpc]
    exact h

theorem State.onlyListens_nextFrame {s : State} (h : s.pc.all Frame.onlyListens = true) :
    s.nextFrame.onlyListens = true ∧ s.pc.tail.all Frame.onlyListens = true := by
  unfold State.nextFrame
  cases hpc : s.pc with
  | nil => exact ⟨rfl, rfl⟩
  | cons f rest =>
    rw [hpc] at h
    exact (Bool.and_eq_true _ _).mp h

end Sys2Proof.Machine

section
open Sys2Proof Sys2Proof.Machine

/-- Settles O44: the names are `logEntry`'s own, and line `l2` receives one byte under ATN, or none in time; on a silent bus
the cycle passes on to its end. -/
theorem listenOnlyLogsCommand : Obligations.ListenOnlyLogsCommand := by
  refine ⟨fun b c => rfl, fun b => ⟨rfl, rfl, rfl, rfl, rfl, rfl, rfl, rfl, rfl⟩, fun b a => ⟨rfl, rfl, rfl⟩,
    fun s hpc hrole hlo => ⟨fun b eoi q hatn hn hin => ?_, fun q hatn hdav hT hin => ?_, fun hs hatn => ?_⟩⟩
  · rw [List.append_assoc] at hin
    exact exec_listenOnlyCycle_reaches hpc hrole hlo (reaches_logged (rest := []) hatn hn hin)
  · rw [List.append_assoc, List.append_assoc] at hin
    exact exec_listenOnlyCycle_reaches hpc hrole hlo (reaches_notLogged (rest := []) hatn hdav hT hin)
  · exact exec_listenOnlyCycle_reaches hpc hrole hlo (reaches_listenedNothing (rest := []) hs hatn)

/-- Settles O45: lines `l2` and `l3` lead to the drain, and no line reads a device flag. -/
theorem listenOnlyDrainsMessage : Obligations.ListenOnlyDrainsMessage := by
  intro s q hpc hrole hlo hatn hdav heoi hin
  rw [List.append_assoc] at hin
  exact exec_listenOnlyCycle_reaches hpc hrole hlo (reaches_listenedMessage (rest := []) hatn hdav heoi hin)

/-- Settles O46: the frame at work is a listening one, and the line of each listening frame only listens. -/
theorem listenOnlyNeverTransmits : Obligations.ListenOnlyNeverTransmits := by
  intro s t hrole hlo hall hstep
  obtain ⟨hframe, hcallers⟩ := State.onlyListens_nextFrame hall
  have hrun := mainStep_runLine hstep
  have hline := runLine_onlyListens _ hrole hlo hframe hrun
  have hcfg : t.cfg = s.cfg := by
    rw [(mainStep_keepsOwned hstep).cfg]
    refine (s.writtenAt_cfg s.nextFrame).resolve_right fun hboot => ?_
    rw [hboot] at hframe
    cases hframe
  exact ⟨hline.frames hcallers, hcfg, runLine_dev (Frame.writesDevice_of_onlyListens hframe) hrun, hline.devEvent,
    hline.drv⟩

end
end

section
/-!
PROOFS. The main cycle (R280 to R288): when a request is taken, where the lines of `MAIN_CYCLE` lead, and the records it
sends with nobody else on the bus.  In Controller role a data record is a `SEND_DATA`; in Device role it is a loop of
its own over `SEND_BYTE` (R283).
-/

namespace Sys2Proof.Machine

/-- A request is its first line, taken when the block is idle (R285). -/
theorem exec_request {i : Instr} (hk : i.kind = .request) (s : State) : ∃ t, exec i s = s.accept t := by
  cases i with
  | sendByte | receiveByte | sendCommand | sendData | receiveMessage | addressingSetup | readStatusByte | sendIfc
  | sendGroupTrigger | popRecord | deviceCycle | listenOnlyCycle | mainCycle | setRole | setListenOnly | setStatus
  | setSrq | setConfig => exact ⟨_, rfl⟩
  | _ => cases hk

section
variable {s : State} {x : Record} {rest : List Frame}

theorem State.isController_of_device (hrole : s.cfg.role = .device) : s.isController = false :=
  decide_eq_false (by rw [hrole]; nofun)

theorem State.isDevice_of_controller (hrole : s.cfg.role = .controller) : s.isDevice = false :=
  decide_eq_false (by rw [hrole]; nofun)

/-! ### Taking a record (R280, R132) -/

theorem Receiver.popped_of_none {r : Receiver} (h : r.oldest = none) : r.popped = r := by
  rw [Receiver.popped, h]

theorem Receiver.popped_of_some {r : Receiver} (h : r.oldest = some x) :
    r.popped = { r with rd := r.rd + 2#8 + x.len } := by
  rw [Receiver.popped, h]

/-- The state at line `k2` with record `x` taken out of the buffer. -/
def State.atRecord (s : State) (x : Record) (rest : List Frame) : State :=
  { s with rx.rd := s.rx.rd + 2#8 + x.len, pc := .mainCycle (.k2 (some x)) :: rest }

theorem mainCycleLine_k1_of_none (h : s.rx.oldest = none) :
    mainCycleLine .k1 rest s = s.goto (.mainCycle (.k2 none) :: rest) := by
  rw [mainCycleLine, Receiver.popped_of_none h, h]

theorem mainCycleLine_k1_of_some (h : s.rx.oldest = some x) :
    mainCycleLine .k1 rest s = s.atRecord x rest := by
  rw [mainCycleLine, Receiver.popped_of_some h, h]
  rfl

theorem exec_mainCycle_of_none (hpc : s.pc = []) (h : s.rx.oldest = none) :
    exec .mainCycle s = .next (s.goto [.mainCycle (.k2 none)]) :=
  (State.accept_idle _ hpc).trans (congrArg _ (mainCycleLine_k1_of_none h))

theorem exec_mainCycle_of_some (hpc : s.pc = []) (h : s.rx.oldest = some x) :
    exec .mainCycle s = .next (s.atRecord x []) :=
  (State.accept_idle _ hpc).trans (congrArg _ (mainCycleLine_k1_of_some h))

/-! ### Where a record goes (R281, R282, R283) -/

theorem routeRecord_command (hflag : x.flag = 0x01#8) :
    routeRecord (some x) rest s = (s.emitDispatch 0x01#8 x.payload).goto (.mainCycle .k3 :: rest) := by
  rw [← hflag]
  exact if_pos hflag

theorem routeRecord_data (hflag : x.flag ≠ 0x01#8) : routeRecord (some x) rest s = dataRecord x.payload rest s :=
  if_neg hflag

theorem dataRecord_controller (hrole : s.cfg.role = .controller) (payload : List Byte) :
    dataRecord payload rest s = enterSendData payload s.cfg.eoiUse (.mainCycle .k2Ret :: rest) s :=
  if_pos (decide_eq_true hrole)

theorem dataRecord_talking (hrole : s.cfg.role = .device) (htalk : s.dev.talking = true)
    (hlo : s.cfg.listenOnly = false) (payload : List Byte) :
    dataRecord payload rest s = deviceRecordLoop payload rest s := by
  rw [dataRecord, State.isController_of_device hrole, htalk, hlo]
  rfl

theorem dataRecord_dropped (hrole : s.cfg.role = .device)
    (h : s.dev.talking = false ∨ s.cfg.listenOnly = true) (payload : List Byte) :
    dataRecord payload rest s = s.goto (.mainCycle .k3 :: rest) := by
  obtain htalk | hlo := h
  · rw [dataRecord, State.isController_of_device hrole, htalk]
    rfl
  · exact dataRecord_listenOnly rest hrole hlo payload

/-! ### Bus processing (R284) -/

theorem busProcessing_device (hrole : s.cfg.role = .device) (hlo : s.cfg.listenOnly = false) :
    busProcessing rest s = s.goto (.deviceCycle .v1 :: .mainCycle .k3Ret :: rest) :=
  (if_pos (decide_eq_true hrole)).trans (if_neg (Bool.eq_false_iff.mp hlo))

theorem busProcessing_controller (hrole : s.cfg.role = .controller) : busProcessing rest s = s.finish .done rest :=
  if_neg (Bool.eq_false_iff.mp (State.isDevice_of_controller hrole))

/-! ### Runs of `MAIN_CYCLE` with nothing scheduled -/

theorem mainStep_mainCycle {l : MainCycleLine} {t : State} (hpc : s.pc = .mainCycle l :: rest)
    (hline : mainCycleLine l rest s = t) : mainStep s = .next t :=
  (mainStep_line hpc).trans (congrArg _ hline)

/-- No line of the cycle drives the bus itself. -/
theorem reaches_mainCycle_line {l : MainCycleLine} (hpc : s.pc = .mainCycle l :: rest) (hin : s.inbox = []) :
    Reaches s (mainCycleLine l rest s) [] :=
  reaches_own_line hpc hin rfl (by rw [(mainCycleLine_movesOnly ..).drv]; exact id)

/-- In Controller role there is no bus processing: the cycle returns. -/
theorem reaches_k3_controller (hpc : s.pc = .mainCycle .k3 :: rest) (hin : s.inbox = [])
    (hrole : s.cfg.role = .controller) : Reaches s (s.finish .done rest) [] :=
  (reaches_mainCycle_line hpc hin).congr (busProcessing_controller hrole)

/-- The result of `SEND_DATA` is dropped (R288). -/
theorem reaches_k2Ret_controller (hpc : s.pc = .mainCycle .k2Ret :: rest) (hin : s.inbox = [])
    (hrole : s.cfg.role = .controller) : Reaches s (s.finish .done rest) [] := by
  have hk3 := reaches_mainCycle_line hpc hin
  have hend := hk3.trans (reaches_k3_controller (rest := rest) rfl hin hrole)
  exact hend.congr (State.finish_congr rfl)

section
variable (hrel : s.talkerReleased) (hs : s.silent)
include hrel hs

/-- In Controller role a data record goes out as `SEND_DATA` sends it (R282). -/
theorem reaches_dataRecord_controller (hrole : s.cfg.role = .controller) (payload : List Byte) :
    Reaches (dataRecord payload rest s)
      ((if payload ++ eosBytes s.cfg.eosMode = [] then s else s.afterSend).finish .done rest)
      (talkedMessage s.cfg.eoiUse s.drv.atn (payload ++ eosBytes s.cfg.eosMode)) := by
  rw [dataRecord_controller hrole]
  have hsent := reaches_sendDataLoop (rest := .mainCycle .k2Ret :: rest) hrel hs
    (payload ++ eosBytes s.cfg.eosMode) s.cfg.eoiUse
  have hend := hsent.trans (reaches_k2Ret_controller (rest := rest) rfl (by split <;> exact hs.2)
    (by split <;> exact hrole))
  rw [List.append_nil] at hend
  exact hend.congr (State.finish_congr rfl)

/-- In Device role the bytes of a data record go out one by one, EOI with the last when `eoi_use` (R283). -/
theorem reaches_deviceRecordLoop (todo : List Byte) :
    Reaches (deviceRecordLoop todo rest s)
      { (if todo = [] then s else { s.afterSend with ret := .ok }) with pc := .mainCycle .k3 :: rest }
      (talkedMessage s.cfg.eoiUse s.drv.atn todo) := by
  induction todo generalizing s with
  | nil => exact .refl _
  | cons b bs ih =>
    have hsent := reaches_called_sendByte (rest := .mainCycle (.k2Byte bs) :: rest) hrel hs b
      (s.cfg.eoiUse && bs.isEmpty)
    have hloop := hsent.trans (reaches_mainCycle_line rfl hs.2)
    have hrest := hloop.trans (ih ⟨rfl, rfl, rfl⟩ hs)
    rw [if_neg (List.cons_ne_nil b bs)]
    refine hrest.congr ?_
    split <;> rfl

end

end

end Sys2Proof.Machine

section
open Sys2Proof Sys2Proof.Machine

/-- Settles O47: line `k2` runs from the state that `k1` leaves, and in Controller role the cycle returns at `k3`. -/
theorem mainCycleController : Obligations.MainCycleController := by
  intro s hpc htalk hs hrole
  have hrel := htalk.released_of_idle hpc
  refine ⟨fun hnone => ?_, fun x hx hflag => ?_, fun x hx hflag => ?_⟩
  · have hk3 := reaches_mainCycle_line (s := s.goto [.mainCycle (.k2 none)]) rfl hs.2
    obtain ⟨k, hk⟩ := hk3.trans (reaches_k3_controller (rest := []) rfl hs.2 hrole)
    exact ⟨_, k, exec_mainCycle_of_none hpc hnone, hk⟩
  · have hk3 := (reaches_mainCycle_line (s := s.atRecord x []) rfl hs.2).congr (routeRecord_command hflag)
    obtain ⟨k, hk⟩ := hk3.trans (reaches_k3_controller (rest := []) rfl hs.2 hrole)
    exact ⟨_, k, exec_mainCycle_of_some hpc hx, hk⟩
  · have hdata := (reaches_mainCycle_line (s := s.atRecord x []) rfl hs.2).congr (routeRecord_data hflag)
    obtain ⟨k, hk⟩ := hdata.trans
      (reaches_dataRecord_controller (s := s.atRecord x []) hrel hs hrole x.payload)
    refine ⟨_, k, _, exec_mainCycle_of_some hpc hx, hk, ?_⟩
    split
    · next hnil => rw [if_pos (by exact hnil)]; rfl
    · next hsent => rw [if_neg (by exact hsent)]; rfl

/-- Settles O48: the record is taken at `k1`; at `k2` it is dispatched, sent byte by byte, or dropped. -/
theorem mainCycleDeviceRecord : Obligations.MainCycleDeviceRecord := by
  refine ⟨fun s hpc hrole => ⟨exec_mainCycle_of_none hpc, fun x => exec_mainCycle_of_some hpc⟩,
    fun s rest hrole => ⟨fun hpc => mainStep_mainCycle hpc rfl,
      fun x hpc hflag => mainStep_mainCycle hpc (routeRecord_command hflag)⟩,
    fun s x hpc htalkerOk hs hrole hflag => ⟨fun htalk hlo => ?_, fun hdrop => ?_⟩⟩
  · have hrel : s.talkerReleased :=
      htalkerOk.released (by rw [hpc]; exact List.forall_mem_singleton.mpr (Nat.one_lt_succ_succ 6))
    have hloop := (reaches_mainCycle_line hpc hs.2).congr
      ((routeRecord_data hflag).trans (dataRecord_talking hrole htalk hlo x.payload))
    exact hloop.trans (reaches_deviceRecordLoop hrel hs x.payload)
  · exact mainStep_mainCycle hpc ((routeRecord_data hflag).trans (dataRecord_dropped hrole hdrop x.payload))

/-- Settles O7: every request is a first line that `State.accept` takes or refuses. -/
theorem requestsNeedIdleBlock : Obligations.RequestsNeedIdleBlock := by
  intro i s hk
  obtain ⟨t, ht⟩ := exec_request hk s
  rw [ht]
  exact ⟨State.accept_busy t, fun hpc => ⟨t, State.accept_idle t hpc⟩⟩

/-- Settles O49: line `k3` is `busProcessing`, whose three ends are these. -/
theorem mainCycleRunsOneCycle : Obligations.MainCycleRunsOneCycle := by
  intro s rest hpc
  exact ⟨fun hrole hlo => mainStep_mainCycle hpc (busProcessing_device hrole hlo),
    fun hrole hlo => mainStep_mainCycle hpc (busProcessing_listenOnly rest hrole hlo),
    fun hrole => mainStep_mainCycle hpc (busProcessing_controller hrole)⟩

end
end

section
/-!
PROOFS. The sequencer position under a step (R21), the tick (R351), and the device flags in Controller role (R311).  A line
leaves the position in one of three ways: its operation has returned, goes on at a line of its own, or calls (`Continues`).
So nesting is kept by every step, and both invariants follow from what the frames at the two ends of a step are.
-/

namespace Sys2Proof.Machine

/-! ### Where a line leaves the sequencer (R21) -/

/-- A line at which a called operation may stand first: a `WAIT` has not polled yet, a device cycle has not passed its
check, and nobody calls boot. -/
def Frame.entered : Frame → Bool
  | .boot _ => false
  | .wait _ l => decide (l = .w1)
  | .deviceCycle l => decide (l = .v1)
  | _ => true

/-- The positions a line of operation `o`, called by `rest`, may leave: `o` has returned, is at a line of its own, or has
called an operation there. -/
inductive Continues (o : Op) (rest : List Frame) : List Frame → Prop
  | returned : Continues o rest rest
  | next {f : Frame} (hf : f.op = o) : Continues o rest (f :: rest)
  | call {f g : Frame} {fs : List Frame} (h : Continues o rest (f :: fs)) (hc : f.calls g.op = true)
      (hg : g.entered = true) : Continues o rest (g :: f :: fs)

theorem isRoot_iff {f : Frame} : f.isRoot = true ↔ f.op ≠ .devClear ∧ ∀ c, f.op ≠ .wait c := by
  cases f <;> simp [Frame.isRoot, Frame.op]

/-- Nesting looks at the operation of the innermost frame, not at its line. -/
theorem nested_of_op {f g : Frame} {rest : List Frame} (h : g.op = f.op) (hn : nested (f :: rest) = true) :
    nested (g :: rest) = true := by
  cases rest with
  | nil => exact isRoot_iff.mpr (h ▸ isRoot_iff.mp hn)
  | cons k ks => rw [nested] at hn ⊢; rwa [h]

namespace Continues

variable {f : Frame} {o : Op} {rest pc : List Frame}

theorem keepsNested (h : Continues f.op rest pc) (hn : nested (f :: rest) = true) : nested pc = true := by
  induction h with
  | returned => exact nested_tail hn
  | next hf => exact nested_of_op hf hn
  | call _ hc _ ih => exact (Bool.and_eq_true _ _).mpr ⟨hc, ih⟩

theorem frames (h : Continues o rest pc) : ∀ g ∈ pc, g ∈ rest ∨ g.op = o ∨ g.entered = true := by
  induction h with
  | returned => exact fun g hg => .inl hg
  | next hf => exact List.forall_mem_cons.mpr ⟨.inr (.inl hf), fun g hg => .inl hg⟩
  | call _ _ hg ih => exact List.forall_mem_cons.mpr ⟨.inr (.inr hg), ih⟩

end Continues

/-! ### What a line does to the position, the tick and the device flags -/

/-- A line of operation `o`, called by `rest`, continues it.  Only a `WAIT` writes `tick_en`, and only a device cycle sets a
device flag. -/
structure Advances (o : Op) (rest : List Frame) (s t : State) : Prop where
  pc : Continues o rest t.pc := by exact .returned
  tickEn : 0 < o.rank → t.hs.tickEn = s.hs.tickEn := by exact fun _ => rfl
  idle : o ≠ .deviceCycle → s.dev.idle = true → t.dev.idle = true := by exact fun _ h => h

namespace Advances

variable {o : Op} {rest fs : List Frame} {s t u : State} {f g : Frame}

theorem next (h : Advances o rest s (u.goto rest)) (hf : f.op = o := by rfl) :
    Advances o rest s (u.goto (f :: rest)) where
  pc := .next hf
  tickEn := h.tickEn
  idle := h.idle

theorem call (h : Advances o rest s (u.goto (f :: fs))) (hc : f.calls g.op = true := by rfl)
    (hg : g.entered = true := by rfl) : Advances o rest s (u.goto (g :: f :: fs)) where
  pc := .call h.pc hc hg
  tickEn := h.tickEn
  idle := h.idle

theorem finish (h : Advances o rest s (u.goto fs)) (r : Ret) : Advances o rest s (u.finish r fs) where
  pc := by rw [State.finish_pc]; exact h.pc
  tickEn := by rw [State.finish_hs]; exact h.tickEn
  idle := by rw [State.finish_dev]; exact h.idle

theorem ite {c : Prop} [Decidable c] (ht : Advances o rest s t) (hu : Advances o rest s u) :
    Advances o rest s (if c then t else u) := by
  split
  · exact ht
  · exact hu

end Advances

section
variable (rest : List Frame) (s : State)

theorem waitLine_advances (c : WaitCond) (l : WaitLine) : Advances (.wait c) rest s (waitLine c l rest s) := by
  have tick (on : Bool) : Advances (.wait c) rest s (State.goto { s with hs.tickEn := on } rest) :=
    { tickEn := fun h => absurd h (Nat.lt_irrefl 0) }
  cases l with
  | w1 => exact .next {}
  | w2 => exact .next (tick true)
  | w3 | w4 => exact .ite (.finish (tick false) _) (.next {})

theorem sendByteLine_advances (v : Byte) (e : Bool) (l : SendByteLine) :
    Advances (.sendByte v e) rest s (sendByteLine v e l rest s) := by
  cases l with
  | s1 | s5 | s8 => exact .next {}
  | s3 | s6 => exact .call (.next {})
  | s2 | s4 | s7 => exact .ite (.finish {} _) (.next {})
  | s9 => exact .finish {} _

theorem receiveByteLine_advances (l : ReceiveByteLine) : Advances .receiveByte rest s (receiveByteLine l rest s) := by
  cases l with
  | r1 | r2 | r5 | r6 | r9 => exact .next {}
  | r3 | r7 => exact .call (.next {})
  | r4 | r8 => exact .ite (.finish {} _) (.next {})
  | r10 => exact .finish {} _

theorem sendCommandLine_advances (b : Byte) (l : SendCommandLine) :
    Advances (.sendCommand b) rest s (sendCommandLine b l rest s) := by
  have hcall : (Frame.sendCommand b .c3).calls (.sendByte b false) = true := by simp [Frame.calls]
  cases l with
  | c1 => exact .ite (.call (.next {}) hcall) (.finish {} _)
  | c3 => exact .next {}
  | c4 => exact .finish {} _

/-- The last byte goes with EOI when it is asked for, the bytes before it without (R184). -/
theorem sendData_calls_sendByte (b : Byte) (bs : List Byte) (e : Bool) :
    (Frame.sendData bs e).calls (.sendByte b (e && bs.isEmpty)) = true := beq_self_eq_true _

theorem sendDataLoop_advances (todo : List Byte) (e : Bool) : Advances .sendData rest s (sendDataLoop todo e rest s) := by
  cases todo with
  | nil => exact .finish {} _
  | cons b bs => exact .call (.next {}) (sendData_calls_sendByte b bs e)

theorem sendDataLine_advances (todo : List Byte) (e : Bool) : Advances .sendData rest s (sendDataLine todo e rest s) := by
  unfold sendDataLine
  split
  · exact .finish {} _
  · exact sendDataLoop_advances rest s todo e

theorem receiveMessageLine_advances (m : RecvMode) (c : Byte) (l : ReceiveMessageLine) :
    Advances (.receiveMessage m c) rest s (receiveMessageLine m c l rest s) := by
  cases l with
  | m1 => rw [receiveMessageLine]; split <;> exact .next {}
  | m2 b eoi =>
    rw [receiveMessageLine, forwardByte]
    split
    · exact .next {}
    · exact .call (.next {})
  | m3 reason => exact .ite (.finish {} _) (.finish {} _)

theorem addressingLoop_advances (todo : List Byte) : Advances .addressingSetup rest s (addressingLoop todo rest s) := by
  cases todo with
  | nil => exact .finish {} _
  | cons b bs => exact .call (.next {})

theorem enterAddressingSetup_advances (pad sad : Byte) (u : Bool) (d : Direction) :
    Advances .addressingSetup rest s (enterAddressingSetup pad sad u d rest s) := by
  unfold enterAddressingSetup
  split
  · exact .finish {} _
  · exact addressingLoop_advances rest s _

theorem addressingSetupLine_advances (todo : List Byte) :
    Advances .addressingSetup rest s (addressingSetupLine todo rest s) := by
  unfold addressingSetupLine
  split
  · exact .finish {} _
  · exact addressingLoop_advances rest s todo

theorem readStatusLoop_advances (pad sad : Byte) (u : Bool) (todo : List Byte) :
    Advances .readStatusByte rest s (readStatusLoop pad sad u todo rest s) := by
  cases todo <;> exact .call (.next {})

theorem enterReadStatusByte_advances (pad sad : Byte) (u : Bool) :
    Advances .readStatusByte rest s (enterReadStatusByte pad sad u rest s) := by
  unfold enterReadStatusByte
  split
  · exact .finish {} _
  · exact readStatusLoop_advances rest s _ _ _ _

theorem readStatusByteLine_advances (pad sad : Byte) (u : Bool) (l : ReadStatusLine) :
    Advances .readStatusByte rest s (readStatusByteLine pad sad u l rest s) := by
  unfold readStatusByteLine
  split
  · exact .finish {} _
  · cases l with
    | p3 todo => exact readStatusLoop_advances rest s _ _ _ _
    | p4 =>
      dsimp only
      split
      · exact .call (.next {})
      · exact .finish {} _
    | p5 sb => exact .call (.next {})
    | p6 sb => exact .finish {} _

theorem sendIfcLine_advances (l : SendIfcLine) : Advances .sendIfc rest s (sendIfcLine l rest s) := by
  cases l with
  | i1 => exact .ite (.next {}) (.finish {} _)
  | i3 => exact .next {}
  | i4 => exact .finish {} _

theorem groupTriggerLoop_advances (todo : List Target) (first : Option ErrKind) :
    Advances .groupTrigger rest s (groupTriggerLoop todo first rest s) := by
  obtain ⟨f, h⟩ | ⟨x, ts, f, b, bs, -, -, -, h⟩ := groupTriggerLoop_cases todo first rest s
  · rw [h]; exact .finish {} _
  · rw [h]; exact .call (.call (.next {}))

theorem enterGroupTrigger_advances (list : List Target) : Advances .groupTrigger rest s (enterGroupTrigger list rest s) :=
  .ite (groupTriggerLoop_advances rest s list none) (.finish {} _)

theorem groupTriggerLine_advances (todo : List Target) (first : Option ErrKind) (l : GroupTriggerLine) :
    Advances .groupTrigger rest s (groupTriggerLine todo first l rest s) := by
  unfold groupTriggerLine
  split
  · exact groupTriggerLoop_advances rest s _ _
  · cases l with
    | addressing => exact .call (.next {})
    | trigger => exact groupTriggerLoop_advances rest s _ _

theorem devClearLine_advances (l : DevClearLine) : Advances .devClear rest s (devClearLine l rest s) := by
  cases l with
  | e1 => exact .next { idle := fun _ _ => rfl }
  | e2 => exact .next {}
  | e3 => exact {}

/-- A command byte leaves the cycle at its line `v5`, or calls the rest of `dev_clear()` there (R241, R245). -/
theorem applyReceived_advances : Advances .deviceCycle rest s (applyReceived (s.goto (.deviceCycle .v5 :: rest))) where
  pc := by
    obtain h | ⟨c, h⟩ := applyReceived_cases (s.goto (.deviceCycle .v5 :: rest)) <;> rw [h]
    · exact .next rfl
    · obtain h | h := applyCmd_pc c (s.goto (.deviceCycle .v5 :: rest)) <;> rw [h]
      · exact .next rfl
      · exact .call (.next rfl) rfl rfl
  tickEn := by rw [applyReceived_hs]; exact fun _ => rfl
  idle := fun h => absurd rfl h

theorem deviceCycleLine_advances (l : DeviceCycleLine) : Advances .deviceCycle rest s (deviceCycleLine l rest s) := by
  cases l with
  | v1 => exact .ite (.finish {} _) (.ite (.call (.next {})) (.next {}))
  | v2 | v3 => exact .ite (.call (.next {})) (.next {})
  | v2Ret => exact applyReceived_advances rest s
  | v3Ret | v3Srq => exact .next {}
  | v3Disarm => exact .finish { idle := fun h => absurd rfl h } _
  | v4 => exact .ite (.call (.call (.next {}))) (.finish {} _)
  | v4Ret | v5 => exact .finish {} _

theorem logReceived_advances : Advances .listenOnlyCycle rest s ((logReceived s).goto rest) where
  tickEn := by rw [State.goto_hs, logReceived_hs]; exact fun _ => rfl
  idle := by rw [State.goto_dev, logReceived_dev]; exact fun _ h => h

theorem listenOnlyLine_advances (l : ListenOnlyLine) :
    Advances .listenOnlyCycle rest s (listenOnlyLine l rest s) := by
  cases l with
  | l1 => exact .ite (.finish {} _) (.next {})
  | l1Talker | l1Acceptor => exact .next {}
  | l2 => exact .ite (.call (.next {})) (.next {})
  | l2Ret => exact .finish (logReceived_advances rest s) _
  | l3 => exact .ite (.call (.call (.next {}))) (.finish {} _)
  | l3Ret => exact .finish {} _

/-- A data record in Device role sends EOI with its last byte at most (R283). -/
theorem k2Byte_calls_sendByte (b : Byte) (bs : List Byte) (e : Bool) :
    (Frame.mainCycle (.k2Byte bs)).calls (.sendByte b (e && bs.isEmpty)) = true := by
  cases e <;> cases bs <;> rfl

theorem deviceRecordLoop_advances (todo : List Byte) :
    Advances .mainCycle rest s (deviceRecordLoop todo rest s) := by
  cases todo with
  | nil => exact .next {}
  | cons b bs => exact .call (.next {}) (k2Byte_calls_sendByte b bs _)

/-- `SEND_DATA` called at line `k2` (R282): it returns at once on an empty message. -/
theorem calledSendData_advances (buffer : List Byte) (e : Bool) :
    Advances .mainCycle rest s (enterSendData buffer e (.mainCycle .k2Ret :: rest) s) := by
  unfold enterSendData
  cases buffer ++ eosBytes s.cfg.eosMode with
  | nil => exact .finish (.next {}) _
  | cons b bs => exact .call (.call (.next {})) (sendData_calls_sendByte b bs e)

theorem routeRecord_advances (popped : Option Record) : Advances .mainCycle rest s (routeRecord popped rest s) := by
  cases popped with
  | none => exact .next {}
  | some x =>
    exact .ite (.next {})
      (.ite (calledSendData_advances rest s _ _) (.ite (deviceRecordLoop_advances rest s _) (.next {})))

theorem mainCycleLine_advances (l : MainCycleLine) : Advances .mainCycle rest s (mainCycleLine l rest s) := by
  cases l with
  | k1 | k2Ret => exact .next {}
  | k2 popped => exact routeRecord_advances rest s popped
  | k2Byte todo =>
    rw [mainCycleLine, deviceRecordLine]
    split
    · exact .next {}
    · exact deviceRecordLoop_advances rest s todo
  | k3 => exact .ite (.ite (.call (.next {})) (.call (.next {}))) (.finish {} _)
  | k3Ret => exact .finish {} _

theorem setRoleLine_advances (new : Role) (l : SetRoleLine) : Advances .setRole rest s (setRoleLine new l rest s) := by
  cases l with
  | t2 => exact .next { idle := fun _ _ => rfl }
  | t3 | t4 => exact .next {}
  | t5 => cases new <;> exact .next {}
  | t6 => exact .finish {} _

theorem setListenOnlyLine_advances (on : Bool) (l : SetListenOnlyLine) :
    Advances .setListenOnly rest s (setListenOnlyLine on l rest s) := by
  cases l with
  | n2 => exact .next { idle := fun _ _ => rfl }
  | n3 | n4 => exact .next {}
  | n5 => exact .finish {} _

end

theorem bootLine_advances {l : BootLine} {s t : State} (h : bootLine l s = .next t) : Advances .boot [] s t := by
  cases l with
  | b1 =>
    rw [bootLine] at h
    split_ifs at h
    cases h
    exact .next {}
  | b2 => cases h; cases s.cfg.role <;> exact .next {}
  | b4 => cases h; exact .next {}
  | b5 => cases h; exact {}

/-- Every line continues its operation.  Boot stands alone on the stack. -/
theorem runLine_advances {f : Frame} {rest : List Frame} {s t : State} (hn : nested (f :: rest) = true)
    (hrun : runLine f rest s = .next t) : Advances f.op rest s t := by
  cases f with
  | boot l => rw [nested_alone hn rfl]; exact bootLine_advances hrun
  | wait c l => cases hrun; exact waitLine_advances rest s c l
  | sendByte v e l => cases hrun; exact sendByteLine_advances rest s v e l
  | receiveByte l => cases hrun; exact receiveByteLine_advances rest s l
  | sendCommand b l => cases hrun; exact sendCommandLine_advances rest s b l
  | sendData todo e => cases hrun; exact sendDataLine_advances rest s todo e
  | receiveMessage m c l => cases hrun; exact receiveMessageLine_advances rest s m c l
  | addressingSetup todo => cases hrun; exact addressingSetupLine_advances rest s todo
  | readStatusByte p a u l => cases hrun; exact readStatusByteLine_advances rest s p a u l
  | sendIfc l => cases hrun; exact sendIfcLine_advances rest s l
  | groupTrigger todo first l => cases hrun; exact groupTriggerLine_advances rest s todo first l
  | devClear l => cases hrun; exact devClearLine_advances rest s l
  | deviceCycle l => cases hrun; exact deviceCycleLine_advances rest s l
  | listenOnlyCycle l => cases hrun; exact listenOnlyLine_advances rest s l
  | mainCycle l => cases hrun; exact mainCycleLine_advances rest s l
  | setRole new l => cases hrun; exact setRoleLine_advances rest s new l
  | setListenOnly on l => cases hrun; exact setListenOnlyLine_advances rest s on l

/-- The first line of a request other than `DEVICE_CYCLE` begins its operation; where it is all there is of the request,
it does what the end of any operation does. -/
theorem request_advances {i : Instr} (hk : i.kind = .request) (hi : i ≠ .deviceCycle) {s t : State}
    (hexec : exec i s = .next t) :
    ∃ f : Frame, f.isRoot = true ∧ f.op ≠ .boot ∧ f.op ≠ .deviceCycle ∧ Advances f.op [] s t := by
  have begun (f : Frame) {u : State} (ha : s.accept u = .next t) (hu : Advances f.op [] s u)
      (hroot : f.isRoot = true := by rfl) (hboot : f.op ≠ .boot := by nofun)
      (hcycle : f.op ≠ .deviceCycle := by nofun) :
      ∃ f : Frame, f.isRoot = true ∧ f.op ≠ .boot ∧ f.op ≠ .deviceCycle ∧ Advances f.op [] s t := by
    obtain ⟨-, rfl⟩ := State.accept_next ha
    exact ⟨f, hroot, hboot, hcycle, hu⟩
  cases i with
  | sendByte v e => exact begun (.sendByte v e .s1) hexec (sendByteLine_advances [] s v e .s1)
  | receiveByte => exact begun (.receiveByte .r1) hexec (receiveByteLine_advances [] s .r1)
  | sendCommand b => exact begun (.sendCommand b .c1) hexec (sendCommandLine_advances [] s b .c1)
  | sendData buffer e => exact begun (.sendData [] e) hexec (sendDataLoop_advances [] s _ e)
  | receiveMessage m c => exact begun (.receiveMessage m c .m1) hexec (.call (.next {}))
  | addressingSetup p a u d => exact begun (.addressingSetup []) hexec (enterAddressingSetup_advances [] s p a u d)
  | readStatusByte p a u =>
    exact begun (.readStatusByte p a u .p4) hexec (enterReadStatusByte_advances [] s p a u)
  | sendIfc => exact begun (.sendIfc .i1) hexec (sendIfcLine_advances [] s .i1)
  | sendGroupTrigger list =>
    exact begun (.groupTrigger list none .addressing) hexec (enterGroupTrigger_advances [] s list)
  | deviceCycle => exact absurd rfl hi
  | listenOnlyCycle => exact begun (.listenOnlyCycle .l1) hexec (listenOnlyLine_advances [] s .l1)
  | mainCycle => exact begun (.mainCycle .k1) hexec (mainCycleLine_advances [] s .k1)
  | setRole r => exact begun (.setRole r .t2) hexec (.next {})
  | setListenOnly on => exact begun (.setListenOnly on .n2) hexec (.next {})
  | popRecord | setStatus v => exact begun (.mainCycle .k1) hexec (.finish {} _)
  | setSrq on | setConfig w => exact begun (.mainCycle .k1) hexec (.ite (.finish {} _) (.finish {} _))
  | _ => cases hk

/-- `DEVICE_CYCLE` runs its check, as it does where it is called (R240). -/
theorem runLine_of_exec_deviceCycle {s t : State} (hexec : exec .deviceCycle s = .next t) :
    runLine (.deviceCycle .v1) [] (s.goto [.deviceCycle .v1]) = .next t := by
  obtain ⟨-, rfl⟩ := State.accept_next hexec
  rfl

/-- An event leaves the position, `tick_en`, the device state and the configuration, or is a `RESET`. -/
theorem event_cases {i : Instr} (hk : i.kind = .event) {s t : State} (hexec : exec i s = .next t) :
    (t.pc = s.pc ∧ t.hs.tickEn = s.hs.tickEn ∧ t.dev = s.dev ∧ t.cfg = s.cfg) ∨ t = resetState s := by
  cases i with
  | rxBurst bs => rw [exec_rxBurst_next hexec]; exact .inl ⟨rfl, rfl, rfl, rfl⟩
  | tick =>
    cases hexec
    unfold onTick
    split <;> exact .inl ⟨rfl, rfl, rfl, rfl⟩
  | busDrive d => cases hexec; exact .inl ⟨rfl, rfl, rfl, rfl⟩
  | reset => cases hexec; exact .inr rfl
  | _ => cases hk

/-! ### The tick (R351) -/

theorem polling_of_rank {f : Frame} {rest : List Frame} (h : 0 < f.rank) : polling (f :: rest) = false := by
  cases f with
  | wait c l => exact absurd h (Nat.lt_irrefl 0)
  | _ => rfl

theorem polling_of_entered {f : Frame} {rest : List Frame} (h : f.entered = true) : polling (f :: rest) = false := by
  cases f with
  | wait c l => cases of_decide_eq_true h; rfl
  | _ => rfl

/-- A `WAIT` calls nothing, so no caller polls. -/
theorem polling_callers {f : Frame} {rest : List Frame} (h : nested (f :: rest) = true) : polling rest = false := by
  cases rest with
  | nil => rfl
  | cons g gs => exact polling_of_rank (Nat.zero_lt_of_lt (nested_rank h g List.mem_cons_self))

theorem rank_of_isRoot {f : Frame} (h : f.isRoot = true) : 0 < f.rank := by
  cases f with
  | wait c l => cases h
  | _ => exact Nat.succ_pos _

theorem Continues.polling_eq_false {f : Frame} {rest pc : List Frame} (h : Continues f.op rest pc)
    (hn : nested (f :: rest) = true) (hf : 0 < f.rank) : polling pc = false := by
  cases h with
  | returned => exact polling_callers hn
  | next hop => exact polling_of_rank (by rwa [← op_rank, hop, op_rank])
  | call _ _ hg => exact polling_of_entered hg

/-- An operation other than `WAIT` runs with the tick disabled, and leaves it so. -/
theorem Advances.tickDisciplined {f : Frame} {rest : List Frame} {s t : State} (h : Advances f.op rest s t)
    (hn : nested (f :: rest) = true) (hf : 0 < f.rank) (hs : s.hs.tickEn = false) : t.tickDisciplined := by
  rw [State.tickDisciplined, h.tickEn (by rwa [op_rank]), h.pc.polling_eq_false hn hf, hs]

/-- Line `w2` enables the tick, and both exits of the `WAIT` disable it (R150, R351). -/
theorem waitLine_tickDisciplined {c : WaitCond} {l : WaitLine} {rest : List Frame} {s : State}
    (hn : nested (.wait c l :: rest) = true) (hs : s.hs.tickEn = polling (.wait c l :: rest)) :
    (waitLine c l rest s).tickDisciplined := by
  cases l with
  | w1 => exact hs
  | w2 => rfl
  | w3 | w4 =>
    rw [waitLine]
    split
    · rw [State.tickDisciplined, State.finish_hs, State.finish_pc, polling_callers hn]
    · exact hs

theorem runLine_tickDisciplined {f : Frame} {rest : List Frame} {s t : State} (hpc : s.pc = f :: rest)
    (hn : nested s.pc = true) (hs : s.tickDisciplined) (hrun : runLine f rest s = .next t) : t.tickDisciplined := by
  rw [State.tickDisciplined] at hs
  rw [hpc] at hn hs
  obtain hf | hf := Nat.eq_zero_or_pos f.rank
  · cases f with
    | wait c l => cases hrun; exact waitLine_tickDisciplined hn hs
    | _ => cases hf
  · exact (runLine_advances hn hrun).tickDisciplined hn hf (hs.trans (polling_of_rank hf))

/-- What a step keeps of the sequencer. -/
structure KeepsSequencer (s t : State) : Prop where
  nested : Machine.nested t.pc = true
  tick : s.tickDisciplined → t.tickDisciplined

theorem runLine_keepsSequencer {f : Frame} {rest : List Frame} {s t : State} (hpc : s.pc = f :: rest)
    (hn : nested s.pc = true) (hrun : runLine f rest s = .next t) : KeepsSequencer s t where
  nested := by rw [hpc] at hn; exact (runLine_advances hn hrun).pc.keepsNested hn
  tick hs := runLine_tickDisciplined hpc hn hs hrun

/-- The first line of a request, on an idle block. -/
theorem request_keepsSequencer {i : Instr} (hk : i.kind = .request) {s t : State} (hpc : s.pc = [])
    (hexec : exec i s = .next t) : KeepsSequencer s t := by
  have hidle (hs : s.tickDisciplined) : s.hs.tickEn = false := by rwa [State.tickDisciplined, hpc] at hs
  by_cases hi : i = .deviceCycle
  · subst hi
    have h := runLine_keepsSequencer (s := s.goto [.deviceCycle .v1]) rfl rfl (runLine_of_exec_deviceCycle hexec)
    exact ⟨h.nested, fun hs => h.tick (hidle hs)⟩
  · obtain ⟨f, hroot, -, -, h⟩ := request_advances hk hi hexec
    exact ⟨h.pc.keepsNested hroot, fun hs => h.tickDisciplined hroot (rank_of_isRoot hroot) (hidle hs)⟩

theorem event_keepsSequencer {i : Instr} (hk : i.kind = .event) {s t : State} (hn : nested s.pc = true)
    (hexec : exec i s = .next t) : KeepsSequencer s t := by
  obtain ⟨hpc, htick, -, -⟩ | rfl := event_cases hk hexec
  · exact ⟨hpc ▸ hn, fun hs => htick.trans (hs.trans (congrArg polling hpc.symm))⟩
  · exact ⟨rfl, fun _ => rfl⟩

/-! ### The device flags in Controller role (R311) -/

/-- What `State.flagsHeld` asks of a frame on the stack. -/
structure State.allows (s : State) (f : Frame) : Prop where
  device : f.deviceOk s.cfg = true
  boot : f.bootIdle s.dev = true

section
variable {s : State} {f : Frame}

theorem State.flagsHeld_iff : s.flagsHeld ↔
    (s.cfg.role = .controller → flagsPending s.pc = false → s.dev.idle = true) ∧ ∀ f ∈ s.pc, s.allows f := by
  unfold State.flagsHeld
  rw [List.all_eq_true, List.all_eq_true]
  exact and_congr_right fun _ =>
    ⟨fun ⟨hd, hb⟩ f hf => ⟨hd f hf, hb f hf⟩, fun h => ⟨fun f hf => (h f hf).device, fun f hf => (h f hf).boot⟩⟩

theorem Frame.deviceOk_of_op (h : f.op ≠ .deviceCycle) (c : ConfigRegs) : f.deviceOk c = true := by
  cases f with
  | deviceCycle l => exact absurd rfl h
  | _ => rfl

theorem Frame.bootIdle_of_op (h : f.op ≠ .boot) (d : Device) : f.bootIdle d = true := by
  cases f with
  | boot l => exact absurd rfl h
  | _ => rfl

theorem State.allows_of_op (hboot : f.op ≠ .boot) (hcycle : f.op ≠ .deviceCycle) : s.allows f :=
  ⟨f.deviceOk_of_op hcycle s.cfg, f.bootIdle_of_op hboot s.dev⟩

theorem State.allows_of_entered (h : f.entered = true) : s.allows f := by
  cases f with
  | boot l => cases h
  | deviceCycle l => cases of_decide_eq_true h; exact ⟨rfl, rfl⟩
  | _ => exact ⟨rfl, rfl⟩

theorem State.allows_of_idle (hop : f.op = .boot) (h : s.dev.idle = true) : s.allows f := by
  cases f with
  | boot l => exact ⟨rfl, h⟩
  | _ => cases hop

theorem State.allows_of_device (hop : f.op = .deviceCycle) (hrole : s.cfg.role = .device)
    (hlo : s.cfg.listenOnly = false) : s.allows f := by
  cases f with
  | deviceCycle l =>
    refine ⟨(Bool.or_eq_true _ _).mpr (.inr ?_), rfl⟩
    rw [hrole, hlo]
    rfl
  | _ => cases hop

end

section
variable {f : Frame} {rest : List Frame} {s t : State}

/-- Boot calls nothing, so a caller stays allowed while the configuration stays. -/
theorem allows_callers (hn : nested (f :: rest) = true) (hs : ∀ g ∈ rest, s.allows g) (hcfg : t.cfg = s.cfg) :
    ∀ g ∈ rest, t.allows g := by
  intro g hg
  obtain ⟨o, ho⟩ := nested_calls hn g hg
  refine ⟨hcfg ▸ (hs g hg).device, g.bootIdle_of_op ?_ t.dev⟩
  intro hop
  cases g with
  | boot l => cases ho
  | _ => cases hop

theorem Advances.allows {o : Op} (h : Advances o rest s t) (hrest : ∀ g ∈ rest, t.allows g)
    (hop : ∀ g : Frame, g.op = o → t.allows g) : ∀ g ∈ t.pc, t.allows g := by
  intro g hg
  obtain hg | hg | hg := h.pc.frames g hg
  · exact hrest g hg
  · exact hop g hg
  · exact State.allows_of_entered hg

/-- Boot keeps every flag clear, whatever role it loads (R340, R342). -/
theorem bootLine_flagsHeld {l : BootLine} (hs : s.allows (.boot l)) (hrun : bootLine l s = .next t) : t.flagsHeld := by
  have h := bootLine_advances hrun
  have hidle : t.dev.idle = true := h.idle nofun hs.boot
  exact State.flagsHeld_iff.mpr ⟨fun _ _ => hidle,
    h.allows (List.forall_mem_nil _) fun g hg => State.allows_of_idle hg hidle⟩

/-- A device cycle past its check is in Device role, and at its check it passes or returns (R240). -/
theorem deviceCycleLine_checked {l : DeviceCycleLine} (hs : s.allows (.deviceCycle l)) :
    (s.cfg.role = .device ∧ s.cfg.listenOnly = false) ∨ deviceCycleLine l rest s = s.finish .done rest := by
  by_cases hc : s.cfg.role = .device ∧ s.cfg.listenOnly = false
  · exact .inl hc
  · have hl : l = .v1 := by simpa [Frame.deviceOk, hc] using hs.device
    have hfails : (!s.isDevice || s.cfg.listenOnly) = true := by simpa [State.isDevice, imp_iff_not_or] using hc
    subst hl
    exact .inr (if_pos hfails)

theorem deviceCycleLine_flagsHeld {l : DeviceCycleLine} (hs : s.allows (.deviceCycle l))
    (hrest : ∀ g ∈ rest, (deviceCycleLine l rest s).allows g)
    (hidle : s.cfg.role = .controller → s.dev.idle = true) : (deviceCycleLine l rest s).flagsHeld := by
  have hcfg := (deviceCycleLine_keepsOwned rest s l).cfg
  rw [State.flagsHeld_iff]
  obtain ⟨hrole, hlo⟩ | hend := deviceCycleLine_checked (rest := rest) hs
  · refine ⟨fun hc => ?_, (deviceCycleLine_advances rest s l).allows hrest fun g hg => ?_⟩
    · rw [hcfg, hrole] at hc
      cases hc
    · exact State.allows_of_device hg (by rw [hcfg, hrole]) (by rw [hcfg, hlo])
  · rw [hend] at hrest hcfg ⊢
    exact ⟨by simpa using fun hc _ => hidle hc, by simpa using hrest⟩

/-- Every other operation holds clear flags clear, and the second line of `SET_ROLE` clears them (R255). -/
theorem runLine_flagsHeld (hpc : s.pc = f :: rest) (hn : nested s.pc = true) (hs : s.flagsHeld)
    (hrun : runLine f rest s = .next t) : t.flagsHeld := by
  rw [State.flagsHeld_iff, hpc] at hs
  rw [hpc] at hn
  obtain ⟨hheld, hframes⟩ := hs
  obtain ⟨hf, hrest⟩ := List.forall_mem_cons.mp hframes
  by_cases hboot : f.op = .boot
  · cases f with
    | boot l => exact bootLine_flagsHeld hf hrun
    | _ => cases hboot
  have hcfg : t.cfg = s.cfg := by
    rw [(runLine_keepsOwned hrun).cfg]
    exact (s.writtenAt_cfg f).resolve_right fun h => hboot (by rw [h]; rfl)
  have hcallers := allows_callers hn hrest hcfg
  by_cases hcycle : f.op = .deviceCycle
  · cases f with
    | deviceCycle l => cases hrun; exact deviceCycleLine_flagsHeld hf hcallers fun hc => hheld hc rfl
    | _ => cases hcycle
  have h := runLine_advances hn hrun
  refine State.flagsHeld_iff.mpr ⟨fun hc _ => ?_, h.allows hcallers fun g hg => ?_⟩
  · cases hp : flagsPending (f :: rest) with
    | false => exact h.idle hcycle (hheld (hcfg ▸ hc) hp)
    | true =>
      unfold flagsPending at hp
      split at hp
      · next heq => cases heq; cases hrun; rfl
      · cases hp
  · exact State.allows_of_op (hg ▸ hboot) (hg ▸ hcycle)

/-- The first line of a request, on an idle block: only `SET_ROLE` writes the role, and it has its second line before it. -/
theorem request_flagsHeld {i : Instr} (hk : i.kind = .request) (hpc : s.pc = []) (hs : s.flagsHeld)
    (hexec : exec i s = .next t) : t.flagsHeld := by
  have hidle (hc : s.cfg.role = .controller) : s.dev.idle = true := by
    rw [State.flagsHeld_iff, hpc] at hs
    exact hs.1 hc rfl
  by_cases hi : i = .deviceCycle
  · subst hi
    refine runLine_flagsHeld (s := s.goto [.deviceCycle .v1]) rfl rfl ?_ (runLine_of_exec_deviceCycle hexec)
    exact State.flagsHeld_iff.mpr
      ⟨fun hc _ => hidle hc, List.forall_mem_singleton.mpr (State.allows_of_entered rfl)⟩
  obtain ⟨f, -, hboot, hcycle, h⟩ := request_advances hk hi hexec
  refine State.flagsHeld_iff.mpr ⟨fun hc hp => ?_, h.allows (List.forall_mem_nil _) fun g hg => ?_⟩
  · have hwritten := congrArg ConfigRegs.role (exec_keepsOwned (.inl hk) hexec).cfg
    obtain hrole | ⟨r, rfl⟩ := s.writtenBy_role i
    · exact h.idle hcycle (hidle ((hwritten.trans hrole).symm.trans hc))
    · obtain ⟨-, rfl⟩ := State.accept_next hexec
      cases hp
  · exact State.allows_of_op (hg ▸ hboot) (hg ▸ hcycle)

theorem event_flagsHeld {i : Instr} (hk : i.kind = .event) (hs : s.flagsHeld) (hexec : exec i s = .next t) :
    t.flagsHeld := by
  obtain ⟨hpc, -, hdev, hcfg⟩ | rfl := event_cases hk hexec
  · unfold State.flagsHeld
    rw [hpc, hdev, hcfg]
    exact hs
  · exact ⟨fun _ _ => rfl, rfl, rfl⟩

end

end Sys2Proof.Machine

section
open Sys2Proof Sys2Proof.Machine

/-- Settles O53: a line, a request or an event keeps the nesting and the tick, on the state with the schedule advanced. -/
theorem tickDiscipline : Obligations.TickDiscipline := by
  intro s t hn hstep
  obtain ⟨q, p, rfl, hmove⟩ := step_moves hstep
  have h : KeepsSequencer { s with inbox := q } t := by
    obtain ⟨f, rest, hpc, hrun⟩ | ⟨hpc, hrun⟩ | ⟨i, hk, hpc, hexec⟩ | ⟨i, hk, -, hexec⟩ := hmove
    · exact runLine_keepsSequencer hpc hn hrun
    · exact request_keepsSequencer (i := .mainCycle) rfl hpc hrun
    · exact request_keepsSequencer hk hpc hexec
    · exact event_keepsSequencer hk hn hexec
  exact ⟨h.nested, h.tick⟩

/-- Settles O56: a line, a request or an event keeps the flags held, on the state with the schedule advanced. -/
theorem controllerHoldsFlagsFalse : Obligations.ControllerHoldsFlagsFalse := by
  intro s t hn hs hstep
  obtain ⟨q, p, rfl, hmove⟩ := step_moves hstep
  have hp : State.flagsHeld { s with inbox := q } := hs
  obtain ⟨f, rest, hpc, hrun⟩ | ⟨hpc, hrun⟩ | ⟨i, hk, hpc, hexec⟩ | ⟨i, hk, -, hexec⟩ := hmove
  · exact runLine_flagsHeld hpc hn hp hrun
  · exact request_flagsHeld (i := .mainCycle) rfl hpc hp hrun
  · exact request_flagsHeld hk hpc hp hexec
  · exact event_flagsHeld hk hp hexec

end
end

section
/-!
PROOFS. What an operation does with the error of its call (R302), and the requests that end at once (R303, R310).
-/

namespace Sys2Proof.Machine

/-! ### The lines after a call that returned an error (R302) -/

section
variable {s : State} {e : ErrKind} {rest : List Frame}

theorem State.finish_pc_congr (s : State) (pc rest : List Frame) (r : Ret) :
    State.finish { s with pc := pc } r rest = s.finish r rest := State.finish_congr rfl

/-- The operations that only pass the error on: their line ends them with it, whatever was left to do. -/
theorem mainStep_passes_error {f : Frame} (hret : s.ret = .err e) (hpc : s.pc = f :: rest)
    (hf : (∃ todo u, f = .sendData todo u) ∨ (∃ todo, f = .addressingSetup todo) ∨
      ∃ p a u l, f = .readStatusByte p a u l) : mainStep s = .next (s.handed (.err e) rest) := by
  rw [mainStep_line hpc, State.handed_eq_finish]
  obtain ⟨todo, u, rfl⟩ | ⟨todo, rfl⟩ | ⟨p, a, u, l, rfl⟩ := hf
  · rw [runLine, sendDataLine, hret]; rfl
  · rw [runLine, addressingSetupLine, hret]; rfl
  · rw [runLine, readStatusByteLine, hret]; rfl

theorem mainStep_receiveMessage_error {m : RecvMode} {c : Byte} (hret : s.ret = .err e)
    (hpc : s.pc = .receiveMessage m c .m1 :: rest) :
    mainStep s = .next (s.goto (.receiveMessage m c (.m3 .timeout) :: rest)) := by
  rw [mainStep_line hpc, runLine, receiveMessageLine, hret]

theorem mainStep_dataRecord_error {l : MainCycleLine} (hret : s.ret = .err e) (hpc : s.pc = .mainCycle l :: rest)
    (hl : l = .k2Ret ∨ ∃ todo, l = .k2Byte todo) : mainStep s = .next (s.goto (.mainCycle .k3 :: rest)) := by
  obtain rfl | ⟨todo, rfl⟩ := hl
  · exact mainStep_mainCycle hpc rfl
  · refine mainStep_mainCycle hpc ?_
    rw [mainCycleLine, deviceRecordLine, hret]

theorem firstError_eq (first : Option ErrKind) (e : ErrKind) : firstError first e = some (first.getD e) := by
  cases first <;> rfl

/-- After an error a group trigger goes on with its next entry, and remembers the first (R210). -/
theorem mainStep_groupTrigger_error {todo : List Target} {first : Option ErrKind} {l : GroupTriggerLine}
    (hret : s.ret = .err e) (hpc : s.pc = .groupTrigger todo first l :: rest) :
    mainStep s = .next (groupTriggerLoop todo (some (first.getD e)) rest s) := by
  rw [mainStep_line hpc, runLine, groupTriggerLine.eq_def, hret, ← firstError_eq]

/-- Where the loop stands does not matter to what it leaves. -/
theorem groupTriggerLoop_pc_congr (todo : List Target) (first : Option ErrKind) (rest pc : List Frame) (s : State) :
    groupTriggerLoop todo first rest { s with pc := pc } = groupTriggerLoop todo first rest s := by
  induction todo generalizing first with
  | nil => exact s.finish_pc_congr pc rest _
  | cons x xs ih =>
    have hsetup : State.setupError { s with pc := pc } x.pad x.sad x.useSad = s.setupError x.pad x.sad x.useSad := rfl
    rw [groupTriggerLoop, groupTriggerLoop, hsetup]
    split
    · exact ih _
    · rfl

end

/-! ### Requests in the wrong role (R303, R310) -/

section
variable {s : State}

theorem setupError_device (hrole : s.cfg.role = .device) (pad sad : Byte) (u : Bool) :
    s.setupError pad sad u = some .roleViolation := by
  rw [State.setupError, State.isController_of_device hrole]
  rfl

variable (hpc : s.pc = [])
include hpc

/-- A request whose first line ends it returns to the requester. -/
theorem accept_finish {u : State} {r : Ret} (hu : u = s.finish r []) : s.accept u = .next (s.returned r) :=
  (State.accept_idle u hpc).trans (congrArg _ hu)

/-- The five controller operations check the role before anything else (R303). -/
theorem exec_controller_operations_device (hrole : s.cfg.role = .device) :
    (∀ b, exec (.sendCommand b) s = .next (s.returned (.err .roleViolation))) ∧
    (∀ p a u d, exec (.addressingSetup p a u d) s = .next (s.returned (.err .roleViolation))) ∧
    (∀ p a u, exec (.readStatusByte p a u) s = .next (s.returned (.err .roleViolation))) ∧
    exec .sendIfc s = .next (s.returned (.err .roleViolation)) ∧
    (∀ l, exec (.sendGroupTrigger l) s = .next (s.returned (.err .roleViolation))) := by
  have hc : ¬ s.isController = true := by rw [State.isController_of_device hrole]; nofun
  refine ⟨fun b => accept_finish hpc (if_neg hc), fun p a u d => accept_finish hpc ?_,
    fun p a u => accept_finish hpc ?_, accept_finish hpc (if_neg hc), fun l => accept_finish hpc (if_neg hc)⟩
  · rw [enterAddressingSetup, setupError_device hrole]; rfl
  · rw [enterReadStatusByte, setupError_device hrole]; rfl

/-- Outside its mode a device cycle returns at its check (R240). -/
theorem exec_deviceCycle_outside (h : s.cfg.role = .controller ∨ s.cfg.listenOnly = true) :
    exec .deviceCycle s = .next (s.returned .done) := by
  refine accept_finish hpc (if_pos ?_)
  obtain hrole | hlo := h
  · rw [State.isDevice_of_controller hrole]; rfl
  · rw [hlo, Bool.or_true]

/-- Outside its mode a listen-only cycle returns at its check (R270). -/
theorem exec_listenOnlyCycle_outside (h : s.cfg.role = .controller ∨ s.cfg.listenOnly = false) :
    exec .listenOnlyCycle s = .next (s.returned .done) := by
  refine accept_finish hpc (if_pos ?_)
  obtain hrole | hlo := h
  · rw [State.isDevice_of_controller hrole]; rfl
  · rw [hlo, Bool.not_false, Bool.or_true]

end

/-! ### Requests for either role (R310) -/

/-- From `s` to `t` no result is recorded, or one that is no `RoleViolation`. -/
def State.RecordsNoRoleViolation (s t : State) : Prop :=
  t.out.results = s.out.results ∨ ∃ r, r ≠ .err .roleViolation ∧ t.out.results = s.out.results ++ [r]

section
variable {s : State}

theorem State.recordsNoRoleViolation_finish {u : State} {r : Ret} (hr : r ≠ .err .roleViolation)
    (hu : u.out.results = s.out.results := by rfl) : s.RecordsNoRoleViolation (u.finish r []) :=
  .inr ⟨r, hr, congrArg (· ++ [r]) hu⟩

theorem enterSendData_recordsNoRoleViolation (buffer : List Byte) (e : Bool) :
    s.RecordsNoRoleViolation (enterSendData buffer e [] s) := by
  unfold enterSendData
  cases buffer ++ eosBytes s.cfg.eosMode with
  | nil => exact State.recordsNoRoleViolation_finish nofun
  | cons b bs => exact .inl rfl

theorem popResult_ne_err (x : Option Record) (e : ErrKind) : popResult x ≠ .err e := by
  cases x <;> nofun

theorem changeConfig_recordsNoRoleViolation (w : ConfigWrite) : s.RecordsNoRoleViolation (changeConfig w s) := by
  unfold changeConfig
  split
  · exact State.recordsNoRoleViolation_finish nofun
  · exact State.recordsNoRoleViolation_finish nofun

end

end Sys2Proof.Machine

section
open Sys2Proof Sys2Proof.Machine

/-- Settles O28: each calling line after an error; a group trigger's loop goes on with the first error. -/
theorem firstErrorEndsOperation : Obligations.FirstErrorEndsOperation := by
  intro s e rest hret
  refine ⟨fun f hf hpc => mainStep_passes_error hret hpc hf, fun b hpc => ⟨mainStep_line hpc, ?_⟩,
    fun m c hpc => mainStep_receiveMessage_error hret hpc, fun l hl hpc => mainStep_dataRecord_error hret hpc hl,
    fun first l hpc => ?_, fun x todo first l hpc hrole hbad => ?_, fun x todo first l hpc hrole hlow hhigh hsad => ?_⟩
  · rw [State.handed_eq_finish, ← hret]
    refine (mainStep_line (s := { s with pc := .sendCommand b .c4 :: rest }) rfl).trans ?_
    exact congrArg Host.Outcome.next (State.finish_pc_congr { s with drv.atn := false } _ rest s.ret)
  · rw [State.handed_eq_finish]
    exact mainStep_groupTrigger_error hret hpc
  · rw [mainStep_groupTrigger_error hret hpc,
      groupTriggerLoop_illegal todo _ (decide_eq_true hrole) (addressOk_false hbad),
      mainStep_groupTrigger_error (s := { s with pc := .groupTrigger todo (some (first.getD e)) l :: rest }) hret rfl]
    exact congrArg Host.Outcome.next (groupTriggerLoop_pc_congr todo _ rest _ s).symm
  · rw [mainStep_groupTrigger_error hret hpc,
      groupTriggerLoop_legal todo _ (decide_eq_true hrole) (addressOk_iff.mpr ⟨hlow, hhigh, hsad⟩)]
    rfl

/-- Settles O29: the checks of the requests that have one, and the results of the first lines that have none. -/
theorem roleChecks : Obligations.RoleChecks := by
  intro s hpc
  refine ⟨exec_controller_operations_device hpc, exec_setSrq_controller hpc, exec_deviceCycle_outside hpc,
    exec_listenOnlyCycle_outside hpc, fun i hi => ?_⟩
  have taken {t : State} (h : exec i s = s.accept t) (ht : s.RecordsNoRoleViolation t) :
      ∃ t, exec i s = .next t ∧ s.RecordsNoRoleViolation t := ⟨t, h.trans (State.accept_idle t hpc), ht⟩
  obtain ⟨v, e, rfl⟩ | rfl | ⟨b, e, rfl⟩ | ⟨m, c, rfl⟩ | rfl | rfl | ⟨r, rfl⟩ | ⟨b, rfl⟩ | ⟨v, rfl⟩ | ⟨w, rfl⟩ := hi
  · exact taken rfl (.inl rfl)
  · exact taken rfl (.inl rfl)
  · exact taken rfl (enterSendData_recordsNoRoleViolation b e)
  · exact taken rfl (.inl rfl)
  · exact taken rfl (State.recordsNoRoleViolation_finish (popResult_ne_err _ _))
  · exact taken rfl (.inl rfl)
  · exact taken rfl (.inl rfl)
  · exact taken rfl (.inl rfl)
  · exact taken rfl (State.recordsNoRoleViolation_finish nofun)
  · exact taken rfl (changeConfig_recordsNoRoleViolation w)

end
end

section
/-!
PROOFS. The events `TICK`, `BUS_DRIVE` and `RESET` (R306, R307, R340) and the boot sequence (R342 to R344).
-/

namespace Sys2Proof.Machine

theorem saturatingSucc_eq (n : Word16) : saturatingSucc n = BitVec.ofNat 16 (min (n.toNat + 1) 0xFFFF) := by
  unfold saturatingSucc
  split
  · next h => rw [h]; rfl
  · next h =>
    have hlt : n.toNat + 1 ≤ 0xFFFF := by bv_omega
    rw [Nat.min_eq_left hlt, BitVec.ofNat_add, BitVec.ofNat_toNat, BitVec.setWidth_eq]

/-- The transceiver lines follow its direction, and the role lines the role (R86, R87). -/
theorem transceiver_outputs (s : State) :
    (s.hs.xcvr = .talk → s.te = true ∧ s.pe = true) ∧ (s.hs.xcvr = .listen → s.te = false ∧ s.pe = false) ∧
    (s.cfg.role = .controller → s.sc = true ∧ s.dc = false) ∧
    (s.cfg.role = .device → s.sc = false ∧ s.dc = true) := by
  unfold State.te State.pe State.sc State.dc
  refine ⟨fun h => ?_, fun h => ?_, fun h => ?_, fun h => ?_⟩ <;> rw [h] <;> exact ⟨rfl, rfl⟩

/-! ### Boot (R342) -/

section
variable {s : State}

/-- Boot owes no tick, so with nothing scheduled each step is its line. -/
theorem step_boot {l : BootLine} {rest : List Frame} (hpc : s.pc = .boot l :: rest) (hin : s.inbox = []) :
    step s = bootLine l s := by
  rw [step_nil hin, ownStep_notDue (tickDue_of_rank hpc (Nat.succ_pos _)), mainStep_line hpc, runLine]

theorem runs_boot_line {k : Nat} {t u : State} {l : BootLine} {rest : List Frame} (hpc : s.pc = .boot l :: rest)
    (hin : s.inbox = []) (hline : bootLine l s = .next t) (h : Runs k t u) : Runs (k + 1) s u :=
  runs_succ ((step_boot hpc hin).trans hline) h

theorem Store.inRange_iff {c : Store} : c.inRange = true ↔
    (c.timeoutMs.getD 1000#16).toNat ≤ 3000 ∧ 1 ≤ c.myPad.toNat ∧ c.myPad.toNat ≤ 30 ∧ c.mySad.toNat ≤ 30 ∧
      c.eosMode.toNat ≤ 3 := by
  simp only [Store.inRange, Bool.and_eq_true, decide_eq_true_iff, and_assoc]

theorem bootLine_b1_legal (hstore : s.store.inRange = true) (hpar : 1 ≤ s.par.rxBurstMax) :
    bootLine .b1 s = .next ({ s with cfg := s.store.regs }.goto [.boot .b2]) :=
  if_pos ((Bool.and_eq_true _ _).mpr ⟨hstore, decide_eq_true hpar⟩)

theorem bootLine_b1_illegal (h : ¬ (s.store.inRange = true ∧ 1 ≤ s.par.rxBurstMax)) :
    bootLine .b1 s = .refused .launchRefused := by
  refine if_neg fun hr => h ?_
  obtain ⟨hstore, hpar⟩ := (Bool.and_eq_true _ _).mp hr
  exact ⟨hstore, of_decide_eq_true hpar⟩

/-- What lines `b1` and `b2` of boot leave: the registers of the store, and the idle drives of its role (R342, R343). -/
def State.booted (s : State) : State :=
  { s with cfg := s.store.regs,
           hs.xcvr := if s.store.role = .controller then .talk else .listen,
           drv := { Drives.released with ndac := decide (s.store.role = .device),
                                         ren := decide (s.store.role = .controller) } }

/-- Line `b2`, after `b1`, reads the role that `b1` has loaded. -/
theorem bootLine_b2_loaded (s : State) :
    bootLine .b2 ({ s with cfg := s.store.regs }.goto [.boot .b2]) = .next (s.booted.goto [.boot .b4]) := by
  have hidle (u : State) (r : Role) : u.idleDrives r =
      { u with hs.xcvr := if r = .controller then .talk else .listen,
               drv := { Drives.released with ndac := decide (r = .device), ren := decide (r = .controller) } } := by
    cases r <;> rfl
  rw [bootLine, hidle]
  rfl

theorem runs_boot (hpc : s.pc = [.boot .b1]) (hin : s.inbox = []) (hstore : s.store.inRange = true)
    (hpar : 1 ≤ s.par.rxBurstMax) : Runs 4 s { s.booted with rx.enabled := true, pc := [] } := by
  have hb5 : Runs 1 ({ s.booted with rx.enabled := true }.goto [.boot .b5])
      { s.booted with rx.enabled := true, pc := [] } := runs_boot_line rfl hin rfl (runs_zero _)
  have hb4 := runs_boot_line (s := s.booted.goto [.boot .b4]) rfl hin rfl hb5
  exact runs_boot_line hpc hin (bootLine_b1_legal hstore hpar)
    (runs_boot_line rfl hin (bootLine_b2_loaded s) hb4)

end

end Sys2Proof.Machine

section
open Sys2Proof Sys2Proof.Machine

/-- Settles O50: the two events and the outputs are their definitions, with the saturating count as a minimum. -/
theorem tickAndBusDrive : Obligations.TickAndBusDrive := by
  refine ⟨fun s => ?_, fun s d => rfl, fun s => rfl, fun s asserted => ⟨rfl, rfl⟩, transceiver_outputs⟩
  rw [← saturatingSucc_eq]
  rfl

/-- Settles O51: `resetState` is what R53 lists, and the ring it draws is canonical. -/
theorem resetRule : Obligations.ResetRule :=
  fun s => ⟨resetState s, rfl, Memory.wf_drawnRing s.draws, rfl⟩

/-- Settles O52: line `b1` checks the launch, and a legal one runs on to `Idle`. -/
theorem bootRule : Obligations.BootRule := by
  intro s hpc hin c ms legal
  have hlegal : legal ↔ s.store.inRange = true ∧ 1 ≤ s.par.rxBurstMax := by
    rw [Store.inRange_iff, and_assoc, and_assoc, and_assoc, and_assoc]
  refine ⟨fun h => ?_, fun h => (step_boot hpc hin).trans (bootLine_b1_illegal (mt hlegal.mpr h))⟩
  obtain ⟨hstore, hpar⟩ := hlegal.mp h
  exact runs_boot hpc hin hstore hpar

end
end
